-- ==== Sys2Proof/Word.lean ====
section
/-! DEFINITION. The widths of the block's data (00_scope.md R9, R11): bytes at the input, a 64-bit payload,
fields of 8, 16 and 32 bits. Arithmetic on them is Lean's own on BitVec. -/

namespace Sys2Proof

/-- A byte, `u8` of 00_scope.md R11. -/
abbrev Byte := BitVec 8

/-- The pattern of a 16-bit field. -/
abbrev Half := BitVec 16

/-- The pattern of a 32-bit field. -/
abbrev Word := BitVec 32

/-- A slot's payload: eight bytes, element `i` the `(i+1)`-th byte after the id (20_memory.md R40). -/
abbrev Payload := Vector Byte 8

/-- The port `pkt_payload` (10_state.md R30): 64 bits, byte `i` at bits `[8i+7:8i]`. -/
abbrev PayloadBits := BitVec 64

end Sys2Proof
end

