-- ==== Sys2Proof/Config.lean ====
section
/-! DEFINITION. What is fixed for the block: its constants (00_scope.md R8), its two build-time parameters with
their defaults (R6, R7), the packet ids by name (20_memory.md R47) and the shape of its input ports
(10_state.md R30). The parameters' values stand in State (log 1, 2). The two opaque constants are FREE VALUES (log 9). -/

namespace Sys2Proof

/-- `HEADER = 0x55` (00_scope.md R8). -/
abbrev Config.header : Byte := 0x55

/-- `ID_BASE = 0x50` (00_scope.md R8). -/
abbrev Config.idBase : Byte := 0x50

/-- The parameter `REGISTERED_IDS` (00_scope.md R6): element `k` says whether id `0x50 + k` is registered, so that
every value of this type is a subset of `0x50..0x5A`. -/
abbrev Registered := Vector Bool 11

/-- The default of `REGISTERED_IDS`: all eleven ids (00_scope.md R6, D5). -/
def Config.defaultRegistered : Registered := Vector.replicate 11 true

/-- The packet ids by the names of 20_memory.md R47, in its order. -/
inductive PacketId where
  | rtc
  | acceleration
  | angularVelocity
  | angles
  | magnetometer
  | dataPortStatus
  | altimeter
  | gpsCoordinates
  | gpsGroundSpeed
  | orientation
  | gpsAccuracy
deriving DecidableEq, Repr

/-- One input record: what the input ports carry in one step (10_state.md R30). -/
structure InputRecord where
  /-- port `rst` -/
  rst : Bool
  /-- port `in_valid` -/
  inValid : Bool
  /-- port `in_byte` -/
  inByte : Byte
  /-- port `cfg_we` -/
  cfgWe : Bool
  /-- port `cfg_validate` -/
  cfgValidate : Bool
deriving DecidableEq, Repr

/-- FREE VALUE (log 9): at draw `n`, the bytes read from `SLOT[ACTIVE_ID − 0x50]` where no such slot exists; `i` = 0 is
its header, 1 its id, 2 to 9 its payload. -/
opaque Config.freeSlotByte (n i : Nat) : Byte

/-- FREE VALUE (log 9): at draw `n`, the fill-count read from a slot that does not exist, within the limit 10_state.md
R24 sets. -/
opaque Config.freeFill (n : Nat) : Fin 9

end Sys2Proof
end

