-- ==== Sys2Proof/Machine/IdMap.lean ====
section
/-! DEFINITION. The slot address map (20_memory.md R47): which slot index an id byte selects, which id byte names
which packet kind, and membership in REGISTERED_IDS. -/

namespace Sys2Proof.Machine

/-- Slot index `k = id − 0x50` (20_memory.md R47); there is none below the id base. -/
def slotIndex (id : Byte) : Option Nat :=
  if Config.idBase.toNat ≤ id.toNat then some (id.toNat - Config.idBase.toNat) else none

/-- `b ∈ REGISTERED_IDS` (00_scope.md R6). -/
def isRegistered (reg : Registered) (b : Byte) : Bool :=
  match slotIndex b with
  | some k => if h : k < 11 then reg[k] else false
  | none => false

/-- The id byte of a packet kind (20_memory.md R47, 30_encoding.md R64). -/
def idCode : PacketId → Byte
  | .rtc => 0x50
  | .acceleration => 0x51
  | .angularVelocity => 0x52
  | .angles => 0x53
  | .magnetometer => 0x54
  | .dataPortStatus => 0x55
  | .altimeter => 0x56
  | .gpsCoordinates => 0x57
  | .gpsGroundSpeed => 0x58
  | .orientation => 0x59
  | .gpsAccuracy => 0x5A

/-- The packet kind an id byte names, if any (30_encoding.md R64). -/
def packetKind (b : Byte) : Option PacketId :=
  if b = 0x50 then some .rtc
  else if b = 0x51 then some .acceleration
  else if b = 0x52 then some .angularVelocity
  else if b = 0x53 then some .angles
  else if b = 0x54 then some .magnetometer
  else if b = 0x55 then some .dataPortStatus
  else if b = 0x56 then some .altimeter
  else if b = 0x57 then some .gpsCoordinates
  else if b = 0x58 then some .gpsGroundSpeed
  else if b = 0x59 then some .orientation
  else if b = 0x5A then some .gpsAccuracy
  else none

end Sys2Proof.Machine
end

