-- ==== Sys2Proof/Syntax.lean ====
section
/-! DEFINITION. The syntax: one constructor for each row of spec/opcode_table.json, in the table's order. A row's
operand is the input byte (framer transitions, CHECKSUM_COMPARE) or the bit written (VALIDATE_WRITE); the other
rows read only the state. -/

namespace Sys2Proof

/-- The rows of the opcode table. -/
inductive Instr where
  /-- T1_HEADER (40_framer.md R102): byte 0x55 in CLEAR -/
  | t1Header
  /-- T2_NOISE (R103): any other byte in CLEAR -/
  | t2Noise (b : Byte)
  /-- T3_ID (R104): a registered id byte in SEEKID -/
  | t3Id (b : Byte)
  /-- T4_REJECT (R108): any other byte in SEEKID -/
  | t4Reject (b : Byte)
  /-- T5_PAYLOAD (R105): a byte in FILLING with fill < 8 -/
  | t5Payload (b : Byte)
  /-- T6_CHECKSUM_STATE (R106): the checksum byte's state change -/
  | t6ChecksumState (b : Byte)
  /-- T6_CHECKSUM_EMIT (R107): the checksum byte's emission -/
  | t6ChecksumEmit (b : Byte)
  /-- RESET (70_reset_and_hazards.md R220) -/
  | reset
  /-- IDLE (40_framer.md R115) -/
  | idle
  /-- VALIDATE_WRITE (41_checksum.md R139), with `cfg_validate` -/
  | validateWrite (v : Bool)
  /-- CHECKSUM (41_checksum.md R130), over the active slot -/
  | checksum
  /-- CHECKSUM_COMPARE (R131), with the received byte -/
  | checksumCompare (b : Byte)
  /-- DELIVER (R138) -/
  | deliver
  /-- VIEW_U8 (42_decoder.md R151) -/
  | viewU8
  /-- VIEW_I8 (R152) -/
  | viewI8
  /-- VIEW_I16 (R153) -/
  | viewI16
  /-- VIEW_I32 (R154) -/
  | viewI32
  /-- ID_RTC, 0x50 (R160) -/
  | idRtc
  /-- ID_Acceleration, 0x51 (R161) -/
  | idAcceleration
  /-- ID_AngularVelocity, 0x52 (R162) -/
  | idAngularVelocity
  /-- ID_Angles, 0x53 (R163) -/
  | idAngles
  /-- ID_Magnetometer, 0x54 (R164) -/
  | idMagnetometer
  /-- ID_DataPortStatus, 0x55 (R165) -/
  | idDataPortStatus
  /-- ID_Altimeter, 0x56 (R166) -/
  | idAltimeter
  /-- ID_GPSCoordinates, 0x57 (R167) -/
  | idGpsCoordinates
  /-- ID_GPSGroundSpeed, 0x58 (R168) -/
  | idGpsGroundSpeed
  /-- ID_Orientation, 0x59 (R169) -/
  | idOrientation
  /-- ID_GPSAccuracy, 0x5A (R170) -/
  | idGpsAccuracy
deriving DecidableEq, Repr

end Sys2Proof
end

