-- ==== Sys2Proof/WellFormed.lean ====
section
/-! DEFINITION. Which operands a row may have (30_encoding.md R63): noise is any byte but 0x55, an id byte is a
registered one, a rejected id byte is not. Every other row takes every operand. -/

namespace Sys2Proof

/-- The condition 30_encoding.md R63 puts on a row's byte, under the parameter REGISTERED_IDS. -/
def Instr.wf (reg : Registered) : Instr → Bool
  | .t1Header => true
  | .t2Noise b => b != Config.header
  | .t3Id b => Machine.isRegistered reg b
  | .t4Reject b => !Machine.isRegistered reg b
  | .t5Payload _ => true
  | .t6ChecksumState _ => true
  | .t6ChecksumEmit _ => true
  | .reset => true
  | .idle => true
  | .validateWrite _ => true
  | .checksum => true
  | .checksumCompare _ => true
  | .deliver => true
  | .viewU8 => true
  | .viewI8 => true
  | .viewI16 => true
  | .viewI32 => true
  | .idRtc => true
  | .idAcceleration => true
  | .idAngularVelocity => true
  | .idAngles => true
  | .idMagnetometer => true
  | .idDataPortStatus => true
  | .idAltimeter => true
  | .idGpsCoordinates => true
  | .idGpsGroundSpeed => true
  | .idOrientation => true
  | .idGpsAccuracy => true

end Sys2Proof
end

