-- ==== Sys2Proof/Decode.lean ====
section
/-! DEFINITION. The decoder and the encoder. What a byte means depends on the sequencer pair (FSTATE, fill)
(10_state.md R21, 30_encoding.md R63), so the decoder reads an input record AT A POSITION and answers the rows the
step runs, in the order it runs them (log 10). It is total, and rejects no record (R66); over a byte list it rejects,
by name, the empty list. -/

namespace Sys2Proof

/-- The place of the program counter (10_state.md R21): the framer state and, while FILLING, the active slot's
fill-count, with the id the active slot carries (it becomes `pkt_id`). -/
inductive Position where
  | clear
  | seekId
  | filling (fill : Fin 9) (pktId : Byte)
deriving DecidableEq, Repr

/-- Why the decoder rejects. -/
inductive DecodeError where
  /-- No byte is there: the input unit is one byte (30_encoding.md R60). -/
  | noByte
deriving DecidableEq, Repr

namespace Decode

/-- The input record of `BYTES b` (30_encoding.md R69). -/
def byteRecord (b : Byte) : InputRecord :=
  { rst := false, inValid := true, inByte := b, cfgWe := false, cfgValidate := false }

/-- The input record of `IDLE` (30_encoding.md R69). -/
def idleRecord : InputRecord :=
  { rst := false, inValid := false, inByte := 0, cfgWe := false, cfgValidate := false }

/-- The input record of `RESET` (30_encoding.md R69). -/
def resetRecord : InputRecord :=
  { rst := true, inValid := false, inByte := 0, cfgWe := false, cfgValidate := false }

/-- The input record of `VALIDATE v` (30_encoding.md R69). -/
def validateRecord (v : Bool) : InputRecord :=
  { rst := false, inValid := false, inByte := 0, cfgWe := true, cfgValidate := v }

/-- The packet-id row of a kind (42_decoder.md R160 to R170). -/
def idRow : PacketId → Instr
  | .rtc => .idRtc
  | .acceleration => .idAcceleration
  | .angularVelocity => .idAngularVelocity
  | .angles => .idAngles
  | .magnetometer => .idMagnetometer
  | .dataPortStatus => .idDataPortStatus
  | .altimeter => .idAltimeter
  | .gpsCoordinates => .idGpsCoordinates
  | .gpsGroundSpeed => .idGpsGroundSpeed
  | .orientation => .idOrientation
  | .gpsAccuracy => .idGpsAccuracy

/-- The packet-id row that `pkt_id` selects, if it names a kind (30_encoding.md R64). -/
def idRows (pktId : Byte) : List Instr :=
  match Machine.packetKind pktId with
  | some k => [idRow k]
  | none => []

/-- The rows of a checksum byte `b` (30_encoding.md R63, row T6): the checksum and its comparison, the emission, the
delivery filter, the four views, the state change, and the reading of the event by its id. -/
def checksumRows (pktId b : Byte) : List Instr :=
  [.checksum, .checksumCompare b, .t6ChecksumEmit b, .deliver, .viewU8, .viewI8, .viewI16, .viewI32,
    .t6ChecksumState b] ++ idRows pktId

/-- The role of an input byte at a position (30_encoding.md R63). -/
def byteRows (reg : Registered) : Position → Byte → List Instr
  | .clear, b => if b = Config.header then [.t1Header] else [.t2Noise b]
  | .seekId, b => if Machine.isRegistered reg b then [.t3Id b] else [.t4Reject b]
  | .filling n pktId, b => if n.val < 8 then [.t5Payload b] else checksumRows pktId b

/-- The VALIDATE write a record asks for, if any (41_checksum.md R139). -/
def cfgRows (r : InputRecord) : List Instr :=
  if r.cfgWe then [.validateWrite r.cfgValidate] else []

end Decode

/-- The rows a step on input record `r` runs at a position, in the precedence of 40_framer.md R100: reset alone,
else the byte's rows (or IDLE), then the VALIDATE write. -/
def decode (reg : Registered) (p : Position) (r : InputRecord) : List Instr :=
  if r.rst then [.reset]
  else if r.inValid then Decode.byteRows reg p r.inByte ++ Decode.cfgRows r
  else .idle :: Decode.cfgRows r

/-- The decoder on a byte stream: the rows of its first byte, and the bytes after it (30_encoding.md R60: the input
unit is one byte; R66: no byte value is illegal). -/
def decodeBytes (reg : Registered) (p : Position) : List Byte → Except DecodeError (List Instr × List Byte)
  | [] => .error .noByte
  | b :: rest => .ok (decode reg p (Decode.byteRecord b), rest)

/-- The encoder: a position and an input record at which a step runs row `i` (30_encoding.md R63, R64, R69). Where a
row's encoding leaves something open (the fill of T5, the id and byte of a checksum step) one value is taken, fill 0,
id 0x50 and byte 0 (log 18). -/
def encode : Instr → Position × InputRecord
  | .t1Header => (.clear, Decode.byteRecord 0x55)
  | .t2Noise b => (.clear, Decode.byteRecord b)
  | .t3Id b => (.seekId, Decode.byteRecord b)
  | .t4Reject b => (.seekId, Decode.byteRecord b)
  | .t5Payload b => (.filling 0 0x50, Decode.byteRecord b)
  | .t6ChecksumState b => (.filling 8 0x50, Decode.byteRecord b)
  | .t6ChecksumEmit b => (.filling 8 0x50, Decode.byteRecord b)
  | .reset => (.clear, Decode.resetRecord)
  | .idle => (.clear, Decode.idleRecord)
  | .validateWrite v => (.clear, Decode.validateRecord v)
  | .checksum => (.filling 8 0x50, Decode.byteRecord 0)
  | .checksumCompare b => (.filling 8 0x50, Decode.byteRecord b)
  | .deliver => (.filling 8 0x50, Decode.byteRecord 0)
  | .viewU8 => (.filling 8 0x50, Decode.byteRecord 0)
  | .viewI8 => (.filling 8 0x50, Decode.byteRecord 0)
  | .viewI16 => (.filling 8 0x50, Decode.byteRecord 0)
  | .viewI32 => (.filling 8 0x50, Decode.byteRecord 0)
  | .idRtc => (.filling 8 0x50, Decode.byteRecord 0)
  | .idAcceleration => (.filling 8 0x51, Decode.byteRecord 0)
  | .idAngularVelocity => (.filling 8 0x52, Decode.byteRecord 0)
  | .idAngles => (.filling 8 0x53, Decode.byteRecord 0)
  | .idMagnetometer => (.filling 8 0x54, Decode.byteRecord 0)
  | .idDataPortStatus => (.filling 8 0x55, Decode.byteRecord 0)
  | .idAltimeter => (.filling 8 0x56, Decode.byteRecord 0)
  | .idGpsCoordinates => (.filling 8 0x57, Decode.byteRecord 0)
  | .idGpsGroundSpeed => (.filling 8 0x58, Decode.byteRecord 0)
  | .idOrientation => (.filling 8 0x59, Decode.byteRecord 0)
  | .idGpsAccuracy => (.filling 8 0x5A, Decode.byteRecord 0)

/-- The number of an instruction's row in spec/opcode_table.json, from 0. -/
def Instr.rowNumber : Instr → Nat
  | .t1Header => 0
  | .t2Noise _ => 1
  | .t3Id _ => 2
  | .t4Reject _ => 3
  | .t5Payload _ => 4
  | .t6ChecksumState _ => 5
  | .t6ChecksumEmit _ => 6
  | .reset => 7
  | .idle => 8
  | .validateWrite _ => 9
  | .checksum => 10
  | .checksumCompare _ => 11
  | .deliver => 12
  | .viewU8 => 13
  | .viewI8 => 14
  | .viewI16 => 15
  | .viewI32 => 16
  | .idRtc => 17
  | .idAcceleration => 18
  | .idAngularVelocity => 19
  | .idAngles => 20
  | .idMagnetometer => 21
  | .idDataPortStatus => 22
  | .idAltimeter => 23
  | .idGpsCoordinates => 24
  | .idGpsGroundSpeed => 25
  | .idOrientation => 26
  | .idGpsAccuracy => 27

namespace Decode

/-- The bytes of a table word, the first at the lowest address: byte `j` is bits `[8j+7:8j]` (the operand bits above
`nbits` are 0). -/
def tableBytes (nbits w : Nat) : List Byte :=
  (List.range ((nbits + 7) / 8)).map fun j => BitVec.ofNat 8 (w / 2 ^ (8 * j))

/-- Where a table word's first byte stands (log 14). The table gives 8-bit words to two kinds of row: an input byte
and a packet id. A byte that names a packet kind, 0x55 apart, is read as `pkt_id` at the checksum byte of its frame;
every other byte, 0x55 among them, is the first input byte after reset, read in CLEAR. The second component is the
bytes given to the decoder there: for a packet id the operand byte, which is 0. -/
def tablePlace (nbits w : Nat) : Option (Position × Byte) :=
  match tableBytes nbits w with
  | [] => none
  | b :: _ =>
    if b ≠ Config.header ∧ (Machine.packetKind b).isSome then some (.filling 8 b, 0) else some (.clear, b)

end Decode

/-- The instruction the decoder reads from a table word: the LAST row the step at that place runs, which is the
packet-id row where the word is a packet id and the only row otherwise (log 14). -/
def decodeTableWord (nbits w : Nat) : Option Instr :=
  match Decode.tablePlace nbits w with
  | none => none
  | some (p, b) =>
    match decodeBytes Config.defaultRegistered p [b] with
    | .ok (rows, _) => rows.getLast?
    | .error _ => none

end Sys2Proof
end

