-- ==== Sys2Proof/Machine/State.lean ====
section
/-! DEFINITION. The state of the block as plain data: the framer registers, the slot array, VALIDATE, the two
parameters, the input records still to come and the output ports of the last step (10_state.md R20 to R33), and the
reasons a step or a meaning can stop. -/

namespace Sys2Proof.Machine

/-- `FSTATE` (10_state.md R22): exactly three values. -/
inductive FState where
  | clear
  | seekId
  | filling
deriving DecidableEq, Repr

/-- One slot (10_state.md R24). `fill` runs over 0..8. -/
structure Slot where
  header : Byte
  id : Byte
  payload : Payload
  fill : Fin 9
deriving DecidableEq, Repr

/-- The RawPacket on the ports `pkt_header`, `pkt_id`, `pkt_payload` and `pkt_checksum` (10_state.md R30). -/
structure RawPacket where
  header : Byte
  id : Byte
  payload : PayloadBits
  checksum : Byte
deriving DecidableEq, Repr

/-- An event's lanes under the names its packet id gives them (42_decoder.md R160 to R170). -/
inductive Lanes where
  /-- no lane assignment (R160, R165, R166, R170) -/
  | unassigned
  /-- GPSGroundSpeed: "unsupported" (R168) -/
  | unsupported
  /-- Acceleration and AngularVelocity (R161, R162) -/
  | axes (x y z temperature : Half)
  /-- Angles (R163) -/
  | angles (roll pitch yaw temperature : Half)
  /-- Magnetometer (R164): the fields have no axis names -/
  | fields (field0 field1 field2 temperature : Half)
  /-- GPSCoordinates (R167) -/
  | coordinates (longitude latitude : Word)
  /-- Orientation (R169) -/
  | quaternion (x y z w : Half)
deriving DecidableEq, Repr

/-- The output ports of one step (10_state.md R30). A port that no row of the step drives is `none`: in a step
without an event the model gives "no event" rather than values (R31, log 4). The last two fields are the model's
own. -/
structure Outputs where
  /-- `pkt_valid` (1 when present), `pkt_header`, `pkt_id`, `pkt_payload`, `pkt_checksum` -/
  packet : Option RawPacket
  /-- `pkt_ok` -/
  pktOk : Option Bool
  /-- `pkt_deliver` -/
  pktDeliver : Option Bool
  /-- `dec_u8[0..7]` -/
  decU8 : Option (Vector Byte 8)
  /-- `dec_i8[0..7]` -/
  decI8 : Option (Vector Byte 8)
  /-- `dec_i16[0..3]` -/
  decI16 : Option (Vector Half 4)
  /-- `dec_i32[0..1]` -/
  decI32 : Option (Vector Word 2)
  /-- MODEL'S OWN net: what the checksum engine computed in this step (log 13) -/
  computed : Option Byte
  /-- MODEL'S OWN reading of the event by its packet id (log 12) -/
  lanes : Option Lanes
deriving DecidableEq, Repr

/-- The outputs of a step without an event. -/
def Outputs.quiet : Outputs :=
  { packet := none, pktOk := none, pktDeliver := none, decU8 := none, decI8 := none, decI16 := none, decI32 := none,
    computed := none, lanes := none }

/-- Everything the spec gives the block. -/
structure State where
  /-- `FSTATE` (10_state.md R22) -/
  fstate : FState
  /-- `ACTIVE_ID` (R23) -/
  activeId : Byte
  /-- `SLOT[0..10]` (R24) -/
  slots : Vector Slot 11
  /-- `SLOT[11..31]`, there only when `SLOT_COUNT = 32` (00_scope.md R7, log 2) -/
  reserved : Option (Vector Slot 21)
  /-- `VALIDATE` (R28) -/
  validate : Bool
  /-- the parameter `REGISTERED_IDS` (00_scope.md R6, log 1); no step writes it -/
  registered : Registered
  /-- MODEL'S OWN: how many free values have been drawn for a slot that does not exist (log 9) -/
  draws : Nat
  /-- MODEL'S OWN: the input records the outside world will drive, oldest first (log 3) -/
  inputs : List InputRecord
  /-- the output ports of the last step (R30) -/
  out : Outputs
deriving DecidableEq, Repr

/-- Why the machine stops. There is no reason: the block raises no exception and its step is total over every state
and record (60_exceptions.md R200), so the type has no constructor and no outcome is a fault. -/
inductive Fault where
deriving DecidableEq, Repr

/-- Why a row has no meaning where it is asked for. A step never asks (log 11, 12). -/
inductive Refusal where
  /-- Raised by `exec` only, in the arm of a row that has no meaning yet. SAFE. -/
  | notModelled (mnemonic : String)
  /-- Raised by a framer or checksum row asked for outside its state or byte condition (30_encoding.md R63), where the
  spec gives that row no effect. SAFE: the decoder never selects it there, log 11. -/
  | rowNotSelected
  /-- Raised by a packet-id row when there is no event: the ports must not be read (10_state.md R31). SAFE, log 12. -/
  | noEvent
  /-- Raised by a packet-id row when `pkt_id` is another kind's: 42_decoder.md R155 has it "as a refusal". SAFE,
  log 12. -/
  | wrongKind
deriving DecidableEq, Repr

/-- A slot at reset. The spec leaves every field unspecified (10_state.md R24, R32): DESIGN CHOICE zero, log 7. -/
def Slot.zero : Slot := { header := 0, id := 0, payload := Vector.replicate 8 0, fill := 0 }

/-- The state after one RESET step from power-on (70_reset_and_hazards.md R221): FSTATE = CLEAR, VALIDATE = 0 and
pkt_valid = 0 are the spec's (10_state.md R32). ACTIVE_ID = 0 (log 6) and zero slots (log 7) are DESIGN CHOICES for
values the spec leaves free; the parameters have their defaults (log 1, 2); no input is scheduled (log 3) and no
free value drawn (log 9). -/
def State.reset : State :=
  { fstate := .clear
    activeId := 0
    slots := Vector.replicate 11 Slot.zero
    reserved := none
    validate := false
    registered := Config.defaultRegistered
    draws := 0
    inputs := []
    out := Outputs.quiet }

end Sys2Proof.Machine
end

