-- ==== Sys2Proof/Machine/Ops.lean ====
section
/-! DEFINITION. The named operations over the state: the setters, slot access by index (10_state.md R33), the active
slot, the position the decoder reads at (R21), the output ports and the input list. The block takes no exception and
returns from none (60_exceptions.md R200, R203), so there is no such operation here. -/

namespace Sys2Proof.Machine

/-- Write FSTATE. -/
def State.setFState (s : State) (f : FState) : State := { s with fstate := f }

/-- Write ACTIVE_ID. -/
def State.setActiveId (s : State) (b : Byte) : State := { s with activeId := b }

/-- Write VALIDATE. -/
def State.setValidate (s : State) (v : Bool) : State := { s with validate := v }

/-- Replace the output ports. -/
def State.setOut (s : State) (o : Outputs) : State := { s with out := o }

/-- Replace the input records still to come. -/
def State.setInputs (s : State) (rs : List InputRecord) : State := { s with inputs := rs }

/-- No event in this step (10_state.md R31). -/
def State.quiet (s : State) : State := s.setOut Outputs.quiet

/-- `SLOT_COUNT` (00_scope.md R7): 11 or 32. -/
def State.slotCount (s : State) : Nat :=
  match s.reserved with
  | none => 11
  | some _ => 32

/-- `SLOT[k]`, for `0 ≤ k < SLOT_COUNT` (10_state.md R33). -/
def State.slot? (s : State) (k : Nat) : Option Slot :=
  if h : k < 11 then some s.slots[k]
  else
    match s.reserved with
    | none => none
    | some v => v[k - 11]?

/-- `SLOT[k] <- v`; an index that is no slot writes nothing (10_state.md R33: nothing else is addressable). -/
def State.setSlot (s : State) (k : Nat) (v : Slot) : State :=
  if h : k < 11 then { s with slots := s.slots.set k v }
  else { s with reserved := s.reserved.map fun r => r.setIfInBounds (k - 11) v }

/-- The active slot's index and contents, `SLOT[ACTIVE_ID − 0x50]` (10_state.md R23), where there is such a slot. -/
def State.activeSlot? (s : State) : Option (Nat × Slot) :=
  match slotIndex s.activeId with
  | none => none
  | some k => (s.slot? k).map (k, ·)

/-- What a read of a slot that does not exist gives: free values (log 9). No run from reset reads one (10_state.md
R25). -/
def State.absentSlot (s : State) : Slot :=
  { header := Config.freeSlotByte s.draws 0
    id := Config.freeSlotByte s.draws 1
    payload := #v[Config.freeSlotByte s.draws 2, Config.freeSlotByte s.draws 3, Config.freeSlotByte s.draws 4,
      Config.freeSlotByte s.draws 5, Config.freeSlotByte s.draws 6, Config.freeSlotByte s.draws 7,
      Config.freeSlotByte s.draws 8, Config.freeSlotByte s.draws 9]
    fill := Config.freeFill s.draws }

/-- The contents a FILLING row reads from `SLOT[ACTIVE_ID − 0x50]`. -/
def State.active (s : State) : Slot :=
  match s.activeSlot? with
  | some (_, S) => S
  | none => s.absentSlot

/-- The free values of this step are used up: the next read of a slot that does not exist draws others (log 9). -/
def State.drawIfAbsent (s : State) : State :=
  match s.activeSlot? with
  | some _ => s
  | none => { s with draws := s.draws + 1 }

/-- `SLOT[ACTIVE_ID − 0x50] <- v`. Where there is no such slot nothing is stored (10_state.md R33, log 9). -/
def State.putActive (s : State) (v : Slot) : State :=
  match s.activeSlot? with
  | some (k, _) => s.setSlot k v
  | none => s.drawIfAbsent

/-- Initialise the slot of an id byte (40_framer.md R104): header 0x55, the id, fill 0; its payload bytes are kept. -/
def State.openSlot (s : State) (b : Byte) : State :=
  match slotIndex b with
  | none => s
  | some k =>
    match s.slot? k with
    | none => s
    | some old => s.setSlot k { header := Config.header, id := b, payload := old.payload, fill := 0 }

/-- Where the framer stands (10_state.md R21). -/
def State.position (s : State) : Position :=
  match s.fstate with
  | .clear => .clear
  | .seekId => .seekId
  | .filling => .filling s.active.fill s.active.id

/-- The input record of the next step: the oldest scheduled one, or an idle record when none is scheduled
(DESIGN CHOICE, log 3). -/
def State.nextInput (s : State) : InputRecord := s.inputs.headD Decode.idleRecord

/-- The state a step's rows start from: its input record taken, no output driven yet. -/
def State.beginStep (s : State) : State := (s.setInputs s.inputs.tail).quiet

/-- What a FILLING row does with the contents of the active slot: the row is not selected in another framer state
(30_encoding.md R63). -/
def State.withActiveSlot (s : State) (f : Slot → Host.Outcome State Fault Refusal) :
    Host.Outcome State Fault Refusal :=
  if s.fstate = .filling then f s.active else .refused .rowNotSelected

end Sys2Proof.Machine
end

