-- ==== Sys2Proof/Machine/Operands.lean ====
section
/-! DEFINITION. Field assembly (00_scope.md R12, 30_encoding.md R65): the packing of the payload on `pkt_payload`, the
four decoder views of that port (42_decoder.md R150 to R154), little-endian assembly from payload bytes, the signed
and unsigned readings of a pattern, and the frame vector of 30_encoding.md R61. -/

namespace Sys2Proof.Machine

/-- `pkt_payload` from the slot's bytes: byte `i` at bits `[8i+7:8i]` (10_state.md R30, D2). -/
def packPayload (p : Payload) : PayloadBits :=
  p[7] ++ p[6] ++ p[5] ++ p[4] ++ p[3] ++ p[2] ++ p[1] ++ p[0]

/-- Byte `i` of `pkt_payload`: bits `[8i+7:8i]`. -/
def payloadByte (p : PayloadBits) (i : Nat) : Byte := p.extractLsb' (8 * i) 8

/-- int16 cell `i` of `pkt_payload`: bits `[16i+15:16i]` (42_decoder.md R153). -/
def cell16 (p : PayloadBits) (i : Nat) : Half := p.extractLsb' (16 * i) 16

/-- int32 cell `j` of `pkt_payload`: bits `[32j+31:32j]` (42_decoder.md R154). -/
def cell32 (p : PayloadBits) (j : Nat) : Word := p.extractLsb' (32 * j) 32

/-- The ports `dec_u8[0..7]` (42_decoder.md R151). -/
def viewU8Of (p : PayloadBits) : Vector Byte 8 :=
  #v[payloadByte p 0, payloadByte p 1, payloadByte p 2, payloadByte p 3,
     payloadByte p 4, payloadByte p 5, payloadByte p 6, payloadByte p 7]

/-- The ports `dec_i8[0..7]` (42_decoder.md R152): the same patterns, read signed by `sext`. -/
def viewI8Of (p : PayloadBits) : Vector Byte 8 :=
  #v[payloadByte p 0, payloadByte p 1, payloadByte p 2, payloadByte p 3,
     payloadByte p 4, payloadByte p 5, payloadByte p 6, payloadByte p 7]

/-- The ports `dec_i16[0..3]` (42_decoder.md R153). -/
def viewI16Of (p : PayloadBits) : Vector Half 4 := #v[cell16 p 0, cell16 p 1, cell16 p 2, cell16 p 3]

/-- The ports `dec_i32[0..1]` (42_decoder.md R154). -/
def viewI32Of (p : PayloadBits) : Vector Word 2 := #v[cell32 p 0, cell32 p 1]

/-- `sext_N(v)`: the pattern read as a two's-complement integer (00_scope.md R11). -/
def sext {n : Nat} (v : BitVec n) : Int := v.toInt

/-- `zext_N(v)`: the pattern read as an unsigned integer (00_scope.md R11). -/
def zext {n : Nat} (v : BitVec n) : Nat := v.toNat

/-- `p[o+1] ++ p[o]`, the pattern `LE16(p, o)` reads unsigned (00_scope.md R12). -/
def le16 (p : Payload) (o : Nat) (h : o + 1 < 8) : Half := p[o + 1] ++ p[o]

/-- `p[o+3] ++ p[o+2] ++ p[o+1] ++ p[o]`, the pattern `LE32(p, o)` reads unsigned (00_scope.md R12, D6). -/
def le32 (p : Payload) (o : Nat) (h : o + 3 < 8) : Word := p[o + 3] ++ p[o + 2] ++ p[o + 1] ++ p[o]

/-- The frame vector of 30_encoding.md R61: byte `n` of the frame at `F[8n+7:8n]`. -/
def frameVector (header id : Byte) (p : Payload) (cs : Byte) : BitVec 88 :=
  cs ++ p[7] ++ p[6] ++ p[5] ++ p[4] ++ p[3] ++ p[2] ++ p[1] ++ p[0] ++ id ++ header

/-- The eleven bytes of a frame in wire order (20_memory.md R40, 30_encoding.md R61). -/
def frameBytes (id : Byte) (p : Payload) (cs : Byte) : List Byte :=
  Config.header :: id :: (p.toList ++ [cs])

end Sys2Proof.Machine
end

