-- ==== Sys2Proof/Machine/Flags.lean ====
section
/-! DEFINITION. The checksum and the two flags of an event (41_checksum.md): `checksum_ok` (R131) and `pkt_deliver`
(R138). The block has no flag that persists between steps (10_state.md R29). -/

namespace Sys2Proof.Machine

/-- The 8-bit wrap-around sum of header, id and the eight payload bytes (41_checksum.md R130); addition of bytes
wraps, so no carry is kept. -/
def checksumOf (h id : Byte) (p : Payload) : Byte :=
  h + id + p[0] + p[1] + p[2] + p[3] + p[4] + p[5] + p[6] + p[7]

/-- The checksum of a slot's ten bytes (40_framer.md R107). -/
def Slot.checksum (S : Slot) : Byte := checksumOf S.header S.id S.payload

/-- `ok = (c = b)` (41_checksum.md R131). -/
def compareOk (c b : Byte) : Bool := c == b

/-- `pkt_deliver` of a step with an event (41_checksum.md R138). -/
def deliverOf (validate ok : Bool) : Bool := !validate || ok

end Sys2Proof.Machine
end

