-- ==== Sys2Proof/Machine/Checksum.lean ====
section
/-! DEFINITION. The meanings of the datapath functions CHECKSUM (41_checksum.md R130), CHECKSUM_COMPARE (R131) and
DELIVER (R138). Each drives its own output and nothing else. -/

namespace Sys2Proof.Machine

/-- CHECKSUM (41_checksum.md R130) over the active slot's header, id and payload (40_framer.md R107). -/
def execChecksum (s : State) : Host.Outcome State Fault Refusal :=
  s.withActiveSlot fun S => .next (s.setOut { s.out with computed := some S.checksum })

/-- CHECKSUM_COMPARE (41_checksum.md R131): `pkt_ok` is the equality of the step's computed checksum and the received
byte. Without a computed checksum the row has no operand. -/
def execChecksumCompare (b : Byte) (s : State) : Host.Outcome State Fault Refusal :=
  match s.out.computed with
  | some c => .next (s.setOut { s.out with pktOk := some (compareOk c b) })
  | none => .refused .rowNotSelected

/-- DELIVER (41_checksum.md R138): `pkt_deliver` of the step's event under VALIDATE as it stands before the step's
VALIDATE write. Without an event the port is not driven (log 4, 5). -/
def execDeliver (s : State) : Host.Outcome State Fault Refusal :=
  match s.out.packet, s.out.pktOk with
  | some _, some ok => .next (s.setOut { s.out with pktDeliver := some (deliverOf s.validate ok) })
  | _, _ => .next s

end Sys2Proof.Machine
end

