-- ==== Sys2Proof/Machine/Control.lean ====
section
/-! DEFINITION. The meanings of the input-record rows: RESET (70_reset_and_hazards.md R220), IDLE (40_framer.md R115)
and VALIDATE_WRITE (41_checksum.md R139). -/

namespace Sys2Proof.Machine

/-- RESET (70_reset_and_hazards.md R220): FSTATE = CLEAR, VALIDATE = 0, no event; ACTIVE_ID and every slot keep their
values. -/
def execReset (s : State) : Host.Outcome State Fault Refusal :=
  .next ((s.quiet.setFState .clear).setValidate false)

/-- IDLE (40_framer.md R115): no framer state changes, no event. -/
def execIdle (s : State) : Host.Outcome State Fault Refusal := .next s.quiet

/-- VALIDATE_WRITE (41_checksum.md R139): VALIDATE takes the value; the event of the step, judged before, stays. -/
def execValidateWrite (v : Bool) (s : State) : Host.Outcome State Fault Refusal := .next (s.setValidate v)

end Sys2Proof.Machine
end

