-- ==== Sys2Proof/Machine/Framer.lean ====
section
/-! DEFINITION. The meanings of the framer transitions T1 to T6 (40_framer.md R102 to R108). Each checks the state and
byte condition of its row (30_encoding.md R63) and answers the refusal rowNotSelected where the row is not the
selected one (log 11). -/

namespace Sys2Proof.Machine

/-- T1_HEADER (40_framer.md R102): CLEAR to SEEKID, nothing else written, no event. -/
def execT1Header (s : State) : Host.Outcome State Fault Refusal :=
  if s.fstate = .clear then .next (s.quiet.setFState .seekId) else .refused .rowNotSelected

/-- T2_NOISE (40_framer.md R103): the byte is discarded, no state is written, no event. -/
def execT2Noise (b : Byte) (s : State) : Host.Outcome State Fault Refusal :=
  if s.fstate = .clear ∧ b ≠ Config.header then .next s.quiet else .refused .rowNotSelected

/-- T3_ID (40_framer.md R104): the slot of the id is initialised, its payload bytes are kept, FILLING begins. -/
def execT3Id (b : Byte) (s : State) : Host.Outcome State Fault Refusal :=
  if s.fstate = .seekId ∧ isRegistered s.registered b = true then
    .next (((s.quiet.openSlot b).setActiveId b).setFState .filling)
  else .refused .rowNotSelected

/-- T4_REJECT (40_framer.md R108): back to CLEAR, no slot written, no event. -/
def execT4Reject (b : Byte) (s : State) : Host.Outcome State Fault Refusal :=
  if s.fstate = .seekId ∧ isRegistered s.registered b = false then .next (s.quiet.setFState .clear)
  else .refused .rowNotSelected

/-- T5_PAYLOAD (40_framer.md R105): the byte goes to `payload[fill]` of the active slot, fill is one more. -/
def execT5Payload (b : Byte) (s : State) : Host.Outcome State Fault Refusal :=
  s.withActiveSlot fun S =>
    if h : S.fill.val < 8 then
      .next (s.quiet.putActive
        { S with payload := S.payload.set S.fill.val b, fill := ⟨S.fill.val + 1, by omega⟩ })
    else .refused .rowNotSelected

/-- T6_CHECKSUM_STATE (40_framer.md R106): FSTATE returns to CLEAR; the slot and ACTIVE_ID keep their values. The byte
is consumed whatever it is. -/
def execT6ChecksumState (_b : Byte) (s : State) : Host.Outcome State Fault Refusal :=
  s.withActiveSlot fun S =>
    if S.fill = 8 then .next (s.drawIfAbsent.setFState .clear) else .refused .rowNotSelected

/-- T6_CHECKSUM_EMIT (40_framer.md R107): the event of the active slot, with the received byte as its checksum field
(D7), and `pkt_ok`. -/
def execT6ChecksumEmit (b : Byte) (s : State) : Host.Outcome State Fault Refusal :=
  s.withActiveSlot fun S =>
    if S.fill = 8 then
      .next (s.setOut { s.out with
        packet := some { header := S.header, id := S.id, payload := packPayload S.payload, checksum := b }
        pktOk := some (compareOk S.checksum b) })
    else .refused .rowNotSelected

end Sys2Proof.Machine
end

