-- ==== Sys2Proof/Machine/PacketIds.lean ====
section
/-! DEFINITION. The meanings of the packet-id rows (42_decoder.md R160 to R170): the event's lanes under the names its
kind gives them, in the model's own output `lanes` (log 12). They are raw patterns; nothing is scaled (00_scope.md
R4). Reading under another kind is refused (R155), and so is reading without an event (10_state.md R31). -/

namespace Sys2Proof.Machine

/-- Read the step's event as kind `k`, with the lanes `f` gives its payload. -/
def State.readAs (s : State) (k : PacketId) (f : PayloadBits → Lanes) : Host.Outcome State Fault Refusal :=
  match s.out.packet with
  | none => .refused .noEvent
  | some p =>
    if p.id = idCode k then .next (s.setOut { s.out with lanes := some (f p.payload) }) else .refused .wrongKind

/-- X, Y, Z and temperature on int16 cells 0 to 3 (42_decoder.md R161, R162). -/
def axesLanes (p : PayloadBits) : Lanes := .axes (cell16 p 0) (cell16 p 1) (cell16 p 2) (cell16 p 3)

/-- ID_RTC (42_decoder.md R160): no lane assignment. -/
def execIdRtc (s : State) : Host.Outcome State Fault Refusal := s.readAs .rtc fun _ => .unassigned

/-- ID_Acceleration (42_decoder.md R161). -/
def execIdAcceleration (s : State) : Host.Outcome State Fault Refusal := s.readAs .acceleration axesLanes

/-- ID_AngularVelocity (42_decoder.md R162; the axis names are the spec's own derivation, log 17). -/
def execIdAngularVelocity (s : State) : Host.Outcome State Fault Refusal := s.readAs .angularVelocity axesLanes

/-- ID_Angles (42_decoder.md R163): roll, pitch, yaw, temperature. -/
def execIdAngles (s : State) : Host.Outcome State Fault Refusal :=
  s.readAs .angles fun p => .angles (cell16 p 0) (cell16 p 1) (cell16 p 2) (cell16 p 3)

/-- ID_Magnetometer (42_decoder.md R164): three fields without axis names, and temperature (log 17). -/
def execIdMagnetometer (s : State) : Host.Outcome State Fault Refusal :=
  s.readAs .magnetometer fun p => .fields (cell16 p 0) (cell16 p 1) (cell16 p 2) (cell16 p 3)

/-- ID_DataPortStatus (42_decoder.md R165): no lane assignment. -/
def execIdDataPortStatus (s : State) : Host.Outcome State Fault Refusal :=
  s.readAs .dataPortStatus fun _ => .unassigned

/-- ID_Altimeter (42_decoder.md R166): no lane assignment. -/
def execIdAltimeter (s : State) : Host.Outcome State Fault Refusal := s.readAs .altimeter fun _ => .unassigned

/-- ID_GPSCoordinates (42_decoder.md R167): longitude on int32 cell 0, latitude on cell 1. -/
def execIdGpsCoordinates (s : State) : Host.Outcome State Fault Refusal :=
  s.readAs .gpsCoordinates fun p => .coordinates (cell32 p 0) (cell32 p 1)

/-- ID_GPSGroundSpeed (42_decoder.md R168): the kind is "unsupported"; only the raw views are produced. -/
def execIdGpsGroundSpeed (s : State) : Host.Outcome State Fault Refusal :=
  s.readAs .gpsGroundSpeed fun _ => .unsupported

/-- ID_Orientation (42_decoder.md R169): quaternion X, Y, Z, W; no temperature lane. -/
def execIdOrientation (s : State) : Host.Outcome State Fault Refusal :=
  s.readAs .orientation fun p => .quaternion (cell16 p 0) (cell16 p 1) (cell16 p 2) (cell16 p 3)

/-- ID_GPSAccuracy (42_decoder.md R170): no lane assignment. -/
def execIdGpsAccuracy (s : State) : Host.Outcome State Fault Refusal := s.readAs .gpsAccuracy fun _ => .unassigned

end Sys2Proof.Machine
end

