-- ==== Sys2Proof/Machine/Views.lean ====
section
/-! DEFINITION. The meanings of the decoder views (42_decoder.md R151 to R154): each reads only `pkt_payload` and
drives its own ports in a step with an event. Without an event the ports are not driven (10_state.md R31, log 4). -/

namespace Sys2Proof.Machine

/-- VIEW_U8 (42_decoder.md R151). -/
def execViewU8 (s : State) : Host.Outcome State Fault Refusal :=
  match s.out.packet with
  | some p => .next (s.setOut { s.out with decU8 := some (viewU8Of p.payload) })
  | none => .next s

/-- VIEW_I8 (42_decoder.md R152). -/
def execViewI8 (s : State) : Host.Outcome State Fault Refusal :=
  match s.out.packet with
  | some p => .next (s.setOut { s.out with decI8 := some (viewI8Of p.payload) })
  | none => .next s

/-- VIEW_I16 (42_decoder.md R153). -/
def execViewI16 (s : State) : Host.Outcome State Fault Refusal :=
  match s.out.packet with
  | some p => .next (s.setOut { s.out with decI16 := some (viewI16Of p.payload) })
  | none => .next s

/-- VIEW_I32 (42_decoder.md R154). -/
def execViewI32 (s : State) : Host.Outcome State Fault Refusal :=
  match s.out.packet with
  | some p => .next (s.setOut { s.out with decI32 := some (viewI32Of p.payload) })
  | none => .next s

end Sys2Proof.Machine
end

