-- ==== Sys2Proof/Machine/Dispatch.lean ====
section
/-! DEFINITION. One arm per row of the opcode table, each a direct call of that row's meaning. -/

namespace Sys2Proof.Machine

def exec (i : Instr) (s : State) : Host.Outcome State Fault Refusal :=
  match i with
  | .t1Header => Sys2Proof.Machine.execT1Header s
  | .t2Noise b => Sys2Proof.Machine.execT2Noise b s
  | .t3Id b => Sys2Proof.Machine.execT3Id b s
  | .t4Reject b => Sys2Proof.Machine.execT4Reject b s
  | .t5Payload b => Sys2Proof.Machine.execT5Payload b s
  | .t6ChecksumState b => Sys2Proof.Machine.execT6ChecksumState b s
  | .t6ChecksumEmit b => Sys2Proof.Machine.execT6ChecksumEmit b s
  | .reset => Sys2Proof.Machine.execReset s
  | .idle => Sys2Proof.Machine.execIdle s
  | .validateWrite v => Sys2Proof.Machine.execValidateWrite v s
  | .checksum => Sys2Proof.Machine.execChecksum s
  | .checksumCompare b => Sys2Proof.Machine.execChecksumCompare b s
  | .deliver => Sys2Proof.Machine.execDeliver s
  | .viewU8 => Sys2Proof.Machine.execViewU8 s
  | .viewI8 => Sys2Proof.Machine.execViewI8 s
  | .viewI16 => Sys2Proof.Machine.execViewI16 s
  | .viewI32 => Sys2Proof.Machine.execViewI32 s
  | .idRtc => Sys2Proof.Machine.execIdRtc s
  | .idAcceleration => Sys2Proof.Machine.execIdAcceleration s
  | .idAngularVelocity => Sys2Proof.Machine.execIdAngularVelocity s
  | .idAngles => Sys2Proof.Machine.execIdAngles s
  | .idMagnetometer => Sys2Proof.Machine.execIdMagnetometer s
  | .idDataPortStatus => Sys2Proof.Machine.execIdDataPortStatus s
  | .idAltimeter => Sys2Proof.Machine.execIdAltimeter s
  | .idGpsCoordinates => Sys2Proof.Machine.execIdGpsCoordinates s
  | .idGpsGroundSpeed => Sys2Proof.Machine.execIdGpsGroundSpeed s
  | .idOrientation => Sys2Proof.Machine.execIdOrientation s
  | .idGpsAccuracy => Sys2Proof.Machine.execIdGpsAccuracy s

end Sys2Proof.Machine
end

