-- ==== Sys2Proof/Machine/Sequence.lean ====
section
/-! DEFINITION. One step of the block (40_framer.md R100) as a sequence of rows: take the input record, drive no
output yet, decode the record at the framer's position, run the rows in order. The order is chosen so that every read
of a step sees the value from before the step (00_scope.md R11, log 10). Also where a table word is placed so that
the next step runs it. -/

namespace Sys2Proof.Machine

/-- Run rows one after another, stopping at the first that does not answer a next state. -/
def runRows : List Instr → State → Host.Outcome State Fault Refusal
  | [], s => .next s
  | i :: rest, s =>
    match exec i s with
    | .next t => runRows rest t
    | .fault r => .fault r
    | .refused r => .refused r

/-- One step of the block (40_framer.md R100). -/
def oneStep (s : State) : Host.Outcome State Fault Refusal :=
  runRows (decode s.registered s.position s.nextInput) s.beginStep

/-- Put the framer at a position: CLEAR, SEEKID, or FILLING the slot of an id with a fill-count, header 0x55 and the
payload bytes it holds (log 14). -/
def State.enter (s : State) : Position → State
  | .clear => s.setFState .clear
  | .seekId => s.setFState .seekId
  | .filling n id =>
    let t := (s.openSlot id).setActiveId id
    (t.putActive { t.active with fill := n }).setFState .filling

/-- The state whose next step runs the table word's instruction: the framer at the word's place, and its byte as the
next input record (log 14). -/
def State.placeTableWord (s : State) (nbits w : Nat) : State :=
  match Decode.tablePlace nbits w with
  | none => s
  | some (p, b) => (s.enter p).setInputs (Decode.byteRecord b :: s.inputs)

end Sys2Proof.Machine
end

