-- ==== Sys2Proof/Machine/Step.lean ====
section
/-! DEFINITION. The step of the machine, and the placing of a table word where the step fetches. -/

namespace Sys2Proof.Machine

/-- One step: one input record consumed, one output record produced (40_framer.md R100). -/
def step (s : State) : Host.Outcome State Fault Refusal := oneStep s

/-- `s` with a table word placed so that the very next step runs its instruction (log 14). -/
def State.withFetchWord (s : State) (nbits w : Nat) : State := s.placeTableWord nbits w

end Sys2Proof.Machine
end

