-- ==== Sys2Proof/Machine/Reference.lean ====
section
/-! DEFINITION. The spec's own pseudocode of a step, in one piece and without rows: 40_framer.md R100 (the step), R101
(the byte step) and the outputs of R111, R138, R150 to R154 and R160 to R170. The step of the machine, built from
rows, is claimed equal to it. Fields are assembled here from the payload BYTES (00_scope.md R12), where the rows take
bits of `pkt_payload`. -/

namespace Sys2Proof.Machine

/-- The event `byte_step` returns (40_framer.md R101), before it is put on the ports. -/
structure RefEvent where
  header : Byte
  id : Byte
  payload : Payload
  checksum : Byte
  ok : Bool
deriving DecidableEq, Repr

/-- The sum over integers, taken mod 256 at the end (41_checksum.md R130). -/
def refChecksum (h id : Byte) (p : Payload) : Byte :=
  BitVec.ofNat 8 ((h.toNat + id.toNat + (p.toList.map BitVec.toNat).sum) % 256)

/-- `byte_step(s, b)` (40_framer.md R101). `SLOT[k]` of FILLING is read and written by the shared `active` and
`putActive`, which also say what happens where there is no slot k (log 9). -/
def refByteStep (s : State) (b : Byte) : State × Option RefEvent :=
  match s.fstate with
  | .clear => if b = 0x55 then ({ s with fstate := .seekId }, none) else (s, none)
  | .seekId =>
    if isRegistered s.registered b = true then
      match s.slot? (b.toNat - 0x50) with
      | none => ({ s with activeId := b, fstate := .filling }, none)
      | some old =>
        ({ s.setSlot (b.toNat - 0x50) { old with header := 0x55, id := b, fill := 0 } with
            activeId := b, fstate := .filling }, none)
    else ({ s with fstate := .clear }, none)
  | .filling =>
    let S := s.active
    if h : S.fill.val < 8 then
      (s.putActive { S with payload := S.payload.set S.fill.val b, fill := ⟨S.fill.val + 1, by omega⟩ }, none)
    else
      ({ s.drawIfAbsent with fstate := .clear },
        some { header := S.header, id := S.id, payload := S.payload, checksum := b,
               ok := decide (refChecksum S.header S.id S.payload = b) })

/-- The named lanes of a payload under a packet id (42_decoder.md R160 to R170, table of 30_encoding.md R64). -/
def refLanes (id : Byte) (p : Payload) : Option Lanes :=
  let c (i : Nat) (h : 2 * i + 1 < 8) : Half := le16 p (2 * i) h
  match packetKind id with
  | some .acceleration | some .angularVelocity =>
    some (.axes (c 0 (by omega)) (c 1 (by omega)) (c 2 (by omega)) (c 3 (by omega)))
  | some .angles => some (.angles (c 0 (by omega)) (c 1 (by omega)) (c 2 (by omega)) (c 3 (by omega)))
  | some .magnetometer => some (.fields (c 0 (by omega)) (c 1 (by omega)) (c 2 (by omega)) (c 3 (by omega)))
  | some .orientation => some (.quaternion (c 0 (by omega)) (c 1 (by omega)) (c 2 (by omega)) (c 3 (by omega)))
  | some .gpsCoordinates => some (.coordinates (le32 p 0 (by omega)) (le32 p 4 (by omega)))
  | some .gpsGroundSpeed => some .unsupported
  | some .rtc | some .dataPortStatus | some .altimeter | some .gpsAccuracy => some .unassigned
  | none => none

/-- `outputs(ev, VALIDATE)` (40_framer.md R100, R111; 41_checksum.md R138; 42_decoder.md R150 to R154). -/
def refOutputs (ev : Option RefEvent) (validate : Bool) : Outputs :=
  match ev with
  | none => Outputs.quiet
  | some e =>
    let p := e.payload
    { packet := some { header := e.header, id := e.id, payload := packPayload p, checksum := e.checksum }
      pktOk := some e.ok
      pktDeliver := some (decide (validate = false ∨ e.ok = true))
      decU8 := some p
      decI8 := some p
      decI16 := some #v[le16 p 0 (by omega), le16 p 2 (by omega), le16 p 4 (by omega), le16 p 6 (by omega)]
      decI32 := some #v[le32 p 0 (by omega), le32 p 4 (by omega)]
      computed := some (refChecksum e.header e.id p)
      lanes := refLanes e.id p }

/-- `step(s, in)` (40_framer.md R100), with `reset(s)` (70_reset_and_hazards.md R220). -/
def refStep (s : State) (r : InputRecord) : State :=
  if r.rst then { s with fstate := .clear, validate := false, out := Outputs.quiet }
  else
    let (t, ev) := if r.inValid then refByteStep s r.inByte else (s, none)
    { t with
      out := refOutputs ev s.validate
      validate := if r.cfgWe then r.cfgValidate else s.validate }

end Sys2Proof.Machine
end

