-- ==== Sys2Proof/Machine/Feed.lean ====
section
/-! DEFINITION. Runs of the block: driving it with a list of input records, and the source's operation
`feed(bytes)` as one step per byte (00_scope.md R5, 40_framer.md R110). -/

namespace Sys2Proof.Machine

/-- An event: the tuple (RawPacket, checksum_ok) (00_scope.md, glossary). -/
structure Event where
  packet : RawPacket
  ok : Bool
deriving DecidableEq, Repr

/-- The event on a step's output ports, if any (40_framer.md R111). -/
def Outputs.event? (o : Outputs) : Option Event :=
  match o.packet, o.pktOk with
  | some p, some ok => some { packet := p, ok := ok }
  | _, _ => none

/-- The events of a list of output records, in step order (20_memory.md R49). -/
def eventsOf (os : List Outputs) : List Event := os.filterMap Outputs.event?

/-- One step with `r` on the input ports. -/
def stepOn (r : InputRecord) (s : State) : Host.Outcome State Fault Refusal := step (s.setInputs (r :: s.inputs))

/-- Drive the input ports with records one after another: the last state and the output record of every step, or
nothing if a step stops. -/
def drive : List InputRecord → State → Option (State × List Outputs)
  | [], s => some (s, [])
  | r :: rs, s =>
    match stepOn r s with
    | .next t => (drive rs t).map fun (u, os) => (u, t.out :: os)
    | .fault _ => none
    | .refused _ => none

/-- `feed(bytes)`: one step per byte, and the events of those steps in order (40_framer.md R110). -/
def feed (bs : List Byte) (s : State) : Option (State × List Event) :=
  (drive (bs.map Decode.byteRecord) s).map fun (t, os) => (t, eventsOf os)

/-- Feed one chunk after another, and join their events (40_framer.md R112). -/
def feedChunks : List (List Byte) → State → Option (State × List Event)
  | [], s => some (s, [])
  | c :: cs, s =>
    match feed c s with
    | none => none
    | some (t, es) => (feedChunks cs t).map fun (u, fs) => (u, es ++ fs)

end Sys2Proof.Machine
end

