-- ==== Sys2Proof/Machine/Stream.lean ====
section
/-! DEFINITION. The stream notation of 30_encoding.md R69 and its pseudo-operations (R70): each line expands to input
records. A stream program is data for the input ports; the block itself runs no program (20_memory.md R51). -/

namespace Sys2Proof.Machine

/-- A line of a stream program (30_encoding.md R69, R70). -/
inductive Line where
  | bytes (bs : List Byte)
  | idle (n : Nat)
  | reset
  | validate (v : Bool)
  /-- CHUNK: a `feed` call boundary, no record -/
  | chunk
  | frame (id : Byte) (p : Payload)
  | frameCs (id : Byte) (p : Payload) (cs : Byte)
  | frame16 (id : Byte) (c0 c1 c2 c3 : Int)
  | frame32 (id : Byte) (d0 d1 : Int)
deriving DecidableEq, Repr

/-- Byte `i` of a pattern: `lo` is byte 0 and `hi` byte 1 (30_encoding.md R70). -/
def byteOf {n : Nat} (v : BitVec n) (i : Nat) : Byte := v.extractLsb' (8 * i) 8

/-- The payload of four int16 values, little-endian (30_encoding.md R70 FRAME16). -/
def payload16 (c0 c1 c2 c3 : Int) : Payload :=
  let h (c : Int) : Half := BitVec.ofInt 16 c
  #v[byteOf (h c0) 0, byteOf (h c0) 1, byteOf (h c1) 0, byteOf (h c1) 1,
     byteOf (h c2) 0, byteOf (h c2) 1, byteOf (h c3) 0, byteOf (h c3) 1]

/-- The payload of two int32 values, little-endian (30_encoding.md R70 FRAME32). -/
def payload32 (d0 d1 : Int) : Payload :=
  let w (d : Int) : Word := BitVec.ofInt 32 d
  #v[byteOf (w d0) 0, byteOf (w d0) 1, byteOf (w d0) 2, byteOf (w d0) 3,
     byteOf (w d1) 0, byteOf (w d1) 1, byteOf (w d1) 2, byteOf (w d1) 3]

/-- The bytes of a frame with its good checksum (30_encoding.md R70 FRAME). -/
def goodFrame (id : Byte) (p : Payload) : List Byte := frameBytes id p (checksumOf Config.header id p)

/-- The input records a line stands for (30_encoding.md R69, R70). -/
def Line.records : Line → List InputRecord
  | .bytes bs => bs.map Decode.byteRecord
  | .idle n => List.replicate n Decode.idleRecord
  | .reset => [Decode.resetRecord]
  | .validate v => [Decode.validateRecord v]
  | .chunk => []
  | .frame id p => (goodFrame id p).map Decode.byteRecord
  | .frameCs id p cs => (frameBytes id p cs).map Decode.byteRecord
  | .frame16 id c0 c1 c2 c3 => (goodFrame id (payload16 c0 c1 c2 c3)).map Decode.byteRecord
  | .frame32 id d0 d1 => (goodFrame id (payload32 d0 d1)).map Decode.byteRecord

/-- The input records of a stream program. -/
def programRecords (ls : List Line) : List InputRecord := ls.flatMap Line.records

end Sys2Proof.Machine
end

