-- ==== Sys2Proof/Safety.lean ====
section
/-! DEFINITION. What counts as a sound state and a safe run, in the terms the statements use: the invariant of
10_state.md R25, the agreement of two states that no output can tell apart (R26, R32), and how far the framer is into
a frame (40_framer.md R111, R116). -/

namespace Sys2Proof.Machine

/-- 10_state.md R25(a): while FILLING, ACTIVE_ID is registered and its slot holds the header 0x55 and that id (the
fill-count is 0..8 by its type). R25(b), at most one slot mid-frame, holds of every state: the one ACTIVE_ID
selects. -/
def State.inv (s : State) : Bool :=
  match s.fstate with
  | .clear => true
  | .seekId => true
  | .filling =>
    isRegistered s.registered s.activeId &&
      match s.activeSlot? with
      | none => false
      | some (_, S) => S.header == Config.header && S.id == s.activeId

/-- Bytes of the current frame already consumed: 0 in CLEAR, 1 in SEEKID, 2 + fill in FILLING (40_framer.md R111). -/
def State.consumed (s : State) : Nat :=
  match s.fstate with
  | .clear => 0
  | .seekId => 1
  | .filling => 2 + s.active.fill.val

/-- Two slots agree on the part of a frame received so far (10_state.md R24, R27). -/
def Slot.agree (S T : Slot) : Prop :=
  S.header = T.header ∧ S.id = T.id ∧ S.fill = T.fill ∧
    ∀ i, (h : i < 8) → i < S.fill.val → S.payload[i] = T.payload[i]

/-- Two states the ports cannot tell apart (10_state.md R26, R27, R32): the same framer state, VALIDATE, parameter
and scheduled inputs, and while FILLING the same partial frame. They may differ in ACTIVE_ID outside FILLING, in
every slot but the active one, in SLOT_COUNT and in stale payload bytes. -/
def State.agree (s t : State) : Prop :=
  s.fstate = t.fstate ∧ s.validate = t.validate ∧ s.registered = t.registered ∧ s.inputs = t.inputs ∧
    (s.fstate = .filling →
      s.activeId = t.activeId ∧
        ∃ k S T, s.activeSlot? = some (k, S) ∧ t.activeSlot? = some (k, T) ∧ S.agree T)

/-- Slot `k` is mid-frame (10_state.md R25(b)): it is the one ACTIVE_ID selects, while FILLING. -/
def State.midFrame (s : State) (k : Nat) : Prop := s.fstate = .filling ∧ ∃ S, s.activeSlot? = some (k, S)

/-- The ports ask for nothing in this record (30_encoding.md R69 `IDLE`): no reset, no byte, no VALIDATE write. -/
def isIdleRecord (r : InputRecord) : Bool := !r.rst && !r.inValid && !r.cfgWe

/-- The checksum of ten bytes in wire order: header, id, payload (41_checksum.md R130, R132). -/
def checksumTen (v : Vector Byte 10) : Byte :=
  checksumOf v[0] v[1] #v[v[2], v[3], v[4], v[5], v[6], v[7], v[8], v[9]]

/-- A two's-complement reading by arithmetic (00_scope.md R11): `u` below half of the range is itself, above it is
`u` less the range `2 ^ n`. -/
def signedValue (n u : Nat) : Int := if u < 2 ^ (n - 1) then (u : Int) else (u : Int) - (2 ^ n : Nat)

/-- The event of a frame `0x55, id, p, cs` (40_framer.md R107, R118). -/
def frameEvent (id : Byte) (p : Payload) (cs : Byte) : Event :=
  { packet := { header := Config.header, id := id, payload := packPayload p, checksum := cs }
    ok := decide (checksumOf Config.header id p = cs) }

/-- A transmitted frame: its id, payload and checksum byte (30_encoding.md R61). -/
structure Frame where
  id : Byte
  payload : Payload
  checksum : Byte
deriving DecidableEq, Repr

/-- The frame's eleven bytes. -/
def Frame.bytes (f : Frame) : List Byte := frameBytes f.id f.payload f.checksum

/-- The event the frame makes. -/
def Frame.event (f : Frame) : Event := frameEvent f.id f.payload f.checksum

end Sys2Proof.Machine
end

