-- ==== Sys2Proof/Certificates/Slice0/Obligations.lean ====
section
/-! DEFINITION. The statements for the provers, from the numbered rules of spec/ file by file. An equation
`exec i s = .next t` says that row `i` completes, with what result, and (by the record update) that every other field
of the state is unchanged. Statements about a packet id's lanes read the model's own output `lanes` (log 12). -/

open Sys2Proof Sys2Proof.Machine

/-! ### Encoding and the step -/

/-- Encoding and decoding agree for every row of the table and every operand (30_encoding.md sections 2 and 6): among
the rows a step runs at the place `encode i` names, the only one of `i`'s table row is `i` itself. -/
def Obligations.EncodeThenDecodeSelectsTheRow : Prop :=
  ∀ (reg : Registered) (i : Instr), i.wf reg = true →
    (decode reg (encode i).1 (encode i).2).filter (fun j => j.rowNumber == i.rowNumber) = [i]

/-- Decoding drops no bit: two records that select the same rows at the same position agree on everything the step
looks at (with rst = 1 the other inputs are ignored, and so are in_byte without in_valid and cfg_validate without
cfg_we). -/
def Obligations.DecodingDropsNoBit : Prop :=
  ∀ (reg : Registered) (p : Position) (r q : InputRecord), decode reg p r = decode reg p q →
      r.rst = q.rst ∧
      (r.rst = false →
        r.inValid = q.inValid ∧ (r.inValid = true → r.inByte = q.inByte) ∧
        r.cfgWe = q.cfgWe ∧ (r.cfgWe = true → r.cfgValidate = q.cfgValidate))

/-- The transition table of 30_encoding.md R63 is complete and its rows exclude each other: at every position an
input byte selects exactly the row the table gives, whose operand meets the row's condition. -/
def Obligations.EveryByteSelectsItsTableRow : Prop :=
  ∀ (reg : Registered) (p : Position) (b : Byte),
    let rows := decode reg p (Decode.byteRecord b)
    (∀ i ∈ rows, i.wf reg = true) ∧
      (p = .clear → b = 0x55 → rows = [.t1Header]) ∧
      (p = .clear → b ≠ 0x55 → rows = [.t2Noise b]) ∧
      (p = .seekId → isRegistered reg b = true → rows = [.t3Id b]) ∧
      (p = .seekId → isRegistered reg b = false → rows = [.t4Reject b]) ∧
      (∀ n id, p = .filling n id → n.val < 8 → rows = [.t5Payload b]) ∧
      (∀ id, p = .filling 8 id →
        rows.filter (fun i => i.rowNumber < 7) = [.t6ChecksumEmit b, .t6ChecksumState b])

/-- Words written out from the spec's encodings (30_encoding.md R63, R64, R69) decode to the rows they stand for. The
last two clauses, a table word read as `pkt_id`, rest on the model's own choice of where a packet-id word is read
(log 14): as an input byte in CLEAR the same byte is noise (40_framer.md R103). -/
def Obligations.WordsDecodeAsTheTableSays : Prop :=
  decode Config.defaultRegistered .clear ⟨false, true, 0b01010101, false, false⟩ = [.t1Header] ∧
  decode Config.defaultRegistered .clear ⟨false, true, 0b01010001, false, false⟩ = [.t2Noise 0x51] ∧
  decode Config.defaultRegistered .seekId ⟨false, true, 0b01010001, false, false⟩ = [.t3Id 0x51] ∧
  decode Config.defaultRegistered .seekId ⟨false, true, 0b01100000, false, false⟩ = [.t4Reject 0x60] ∧
  decode Config.defaultRegistered .clear ⟨true, true, 0b01010101, true, true⟩ = [.reset] ∧
  decode Config.defaultRegistered .clear ⟨false, false, 0, true, true⟩ = [.idle, .validateWrite true] ∧
  decodeTableWord 8 0b01010000 = some .idRtc ∧
  decodeTableWord 8 0b01011010 = some .idGpsAccuracy

/-- A step takes the next input record, drives no output yet, and runs the rows the record selects at the framer's
position; where that is one row, the step is `exec` of it. That a step is a sequence of rows run one after another is
the model's form of the spec's simultaneous writes (00_scope.md R11): log 10; that the record comes from a list in State
is the model's choice: log 3. -/
def Obligations.StepRunsTheSelectedRows : Prop :=
  ∀ s : State,
    let rows := decode s.registered s.position s.nextInput
    step s = runRows rows { s with inputs := s.inputs.tail, out := Outputs.quiet } ∧
    ∀ i, rows = [i] → step s = exec i { s with inputs := s.inputs.tail, out := Outputs.quiet }

/-- The step built from rows is the spec's pseudocode of a step (40_framer.md R100, R101; 70_reset_and_hazards.md
R220; 41_checksum.md R130, R138; 42_decoder.md R150 to R170), for every state and every input record. Where FILLING
has no slot both read free values (log 9); the last two outputs are the model's own (log 12, 13), and a step without a
scheduled record takes an idle one (log 3). -/
def Obligations.StepIsThePseudocode : Prop :=
  ∀ s : State,
    step s = .next (refStep { s with inputs := s.inputs.tail } s.nextInput)

/-! ### The whole machine -/

/-- The invariant of 10_state.md R25 holds at reset. -/
def Obligations.InvariantHoldsAtReset : Prop := State.reset.inv = true

/-- The invariant of 10_state.md R25 holds after every step from a state that has it: (a) while FILLING, ACTIVE_ID is
registered and its slot carries 0x55 and that id; (b) at most one slot is mid-frame, and none outside FILLING. -/
def Obligations.StepKeepsTheInvariant : Prop :=
  ∀ s t : State, s.inv = true → step s = .next t →
    t.inv = true ∧ (∀ j k, t.midFrame j → t.midFrame k → j = k) ∧ (∀ k, t.fstate ≠ .filling → ¬ t.midFrame k)

/-- The step is total (60_exceptions.md R200): from every state, whatever the input record, a step answers a next state;
and from every state every list of records runs to its end, one output record a step, with the invariant kept. Where
FILLING has no slot the next state is the model's choice (log 9). -/
def Obligations.NoInputSequenceStopsTheBlock : Prop :=
  (∀ s : State, ∃ t, step s = .next t) ∧
  (∀ (rs : List InputRecord) (s : State),
    ∃ t os, drive rs s = some (t, os) ∧ os.length = rs.length ∧ (s.inv = true → t.inv = true))

/-- A byte while FILLING with an ACTIVE_ID that selects no slot (10_state.md R33), the model's choice (log 9): with the
contents `S` read there, whatever they are, it is taken as a payload byte that is stored nowhere if the fill of `S` is
below 8, and as the checksum of `S` if it is 8; no slot changes, and the next such read draws other values. -/
def Obligations.WithoutASlotTheFrameIsFree : Prop :=
  ∀ (s : State) (b : Byte) (S : Slot), s.fstate = .filling → s.activeSlot? = none → s.active = S →
    (S.fill.val < 8 →
      stepOn (Decode.byteRecord b) s = .next { s with draws := s.draws + 1, out := Outputs.quiet }) ∧
    (S.fill = 8 → ∃ o, stepOn (Decode.byteRecord b) s =
        .next { s with fstate := .clear, draws := s.draws + 1, out := o } ∧
      o.packet = some { header := S.header, id := S.id, payload := packPayload S.payload, checksum := b } ∧
      o.pktOk = some (decide (checksumOf S.header S.id S.payload = b)))

/-- VALIDATE has two writers (10_state.md R28, 41_checksum.md R139): reset sets it to 0, and a configuration write in
a step without reset sets it to cfg_validate; no other step changes it. -/
def Obligations.ValidateHasTwoWriters : Prop :=
  ∀ s t : State, step s = .next t →
    t.validate = (if s.nextInput.rst then false
                  else if s.nextInput.cfgWe then s.nextInput.cfgValidate else s.validate)

/-- ACTIVE_ID is written only by the SEEKID to FILLING transition, with the id byte (10_state.md R23). -/
def Obligations.ActiveIdIsWrittenOnlyByTheIdByte : Prop :=
  ∀ s t : State, step s = .next t → t.activeId ≠ s.activeId →
    s.fstate = .seekId ∧ t.fstate = .filling ∧ s.nextInput.rst = false ∧ s.nextInput.inValid = true ∧
      isRegistered s.registered s.nextInput.inByte = true ∧ t.activeId = s.nextInput.inByte

/-- The slot array and the parameters (10_state.md R24, R33; 20_memory.md R47; 00_scope.md R6, R7): a step changes a
slot only by initialising the slot of the id byte it accepts or by storing a payload byte in the active slot; from a
state with the invariant no slot 11..31 changes; the parameters never change. -/
def Obligations.OnlyTheSelectedSlotChanges : Prop :=
  ∀ s t : State, step s = .next t →
    t.registered = s.registered ∧ t.slotCount = s.slotCount ∧
    (∀ j, t.slot? j ≠ s.slot? j →
      s.nextInput.rst = false ∧ s.nextInput.inValid = true ∧
        ((s.fstate = .seekId ∧ isRegistered s.registered s.nextInput.inByte = true ∧
            slotIndex s.nextInput.inByte = some j) ∨
         (s.fstate = .filling ∧ ∃ S, s.activeSlot? = some (j, S) ∧ S.fill.val < 8))) ∧
    (s.inv = true → ∀ j, 11 ≤ j → t.slot? j = s.slot? j)

/-- `pkt_valid` is 1 in exactly the steps that consume a checksum byte (60_exceptions.md R204, 40_framer.md R111). -/
def Obligations.EventExactlyAtTheChecksumByte : Prop :=
  ∀ s t : State, step s = .next t →
    (t.out.packet.isSome = true ↔
      s.nextInput.rst = false ∧ s.nextInput.inValid = true ∧ ∃ id, s.position = .filling 8 id)

/-- The ports after a step: either no event and no port driven (10_state.md R31), or an event with every port driven
from it: `pkt_deliver` under VALIDATE as before the step (41_checksum.md R138) and the four views of `pkt_payload`
(42_decoder.md R150). -/
def Obligations.PortsAreAllDrivenOrAllQuiet : Prop :=
  ∀ s t : State, step s = .next t →
    t.out = Outputs.quiet ∨
    ∃ p ok, t.out.packet = some p ∧ t.out.pktOk = some ok ∧
      t.out.pktDeliver = some (decide (s.validate = false ∨ ok = true)) ∧
      t.out.decU8 = some (viewU8Of p.payload) ∧ t.out.decI8 = some (viewI8Of p.payload) ∧
      t.out.decI16 = some (viewI16Of p.payload) ∧ t.out.decI32 = some (viewI32Of p.payload)

/-! ### Framer transitions -/

/-- T1_HEADER (40_framer.md R102): in CLEAR the header byte leads to SEEKID; nothing else is written, no event. -/
def Obligations.HeaderByteLeadsToSeekId : Prop :=
  ∀ s : State, s.fstate = .clear →
    exec .t1Header s = .next { s with fstate := .seekId, out := Outputs.quiet }

/-- T2_NOISE (40_framer.md R103): in CLEAR any other byte is discarded; no state is written, no event. -/
def Obligations.NoiseByteIsDiscarded : Prop :=
  ∀ (s : State) (b : Byte), s.fstate = .clear → b ≠ 0x55 →
    exec (.t2Noise b) s = .next { s with out := Outputs.quiet }

/-- T3_ID (40_framer.md R104): in SEEKID a registered id byte initialises the slot of that id (header 0x55, the id,
fill 0, payload bytes kept), makes it active and begins FILLING; every other slot and every other field is
unchanged, no event. -/
def Obligations.IdByteInitialisesItsSlot : Prop :=
  ∀ (s : State) (b : Byte), s.fstate = .seekId → isRegistered s.registered b = true →
    ∃ t old, exec (.t3Id b) s = .next t ∧
      t.fstate = .filling ∧ t.activeId = b ∧
      s.slot? (b.toNat - 0x50) = some old ∧
      t.slot? (b.toNat - 0x50) = some { header := 0x55, id := b, payload := old.payload, fill := 0 } ∧
      (∀ j, j ≠ b.toNat - 0x50 → t.slot? j = s.slot? j) ∧
      t.slotCount = s.slotCount ∧ t.validate = s.validate ∧ t.registered = s.registered ∧
      t.draws = s.draws ∧ t.inputs = s.inputs ∧ t.out = Outputs.quiet

/-- T4_REJECT (40_framer.md R108): in SEEKID any other byte, 0x55 included when it is not registered, is discarded
and leads back to CLEAR; no slot is written, no event. -/
def Obligations.RejectedIdLeadsToClear : Prop :=
  ∀ (s : State) (b : Byte), s.fstate = .seekId → isRegistered s.registered b = false →
    exec (.t4Reject b) s = .next { s with fstate := .clear, out := Outputs.quiet }

/-- T5_PAYLOAD (40_framer.md R105): in FILLING with fill n < 8 any byte is stored at `payload[n]` of the active slot
and fill becomes n + 1; the slot's other bytes, every other slot and every other field are unchanged, no event. -/
def Obligations.PayloadByteIsStoredAtFill : Prop :=
  ∀ (s : State) (b : Byte) (k : Nat) (S : Slot), s.fstate = .filling → s.activeSlot? = some (k, S) →
    S.fill.val < 8 →
    ∃ t T, exec (.t5Payload b) s = .next t ∧ t.slot? k = some T ∧
      T.header = S.header ∧ T.id = S.id ∧ T.fill.val = S.fill.val + 1 ∧
      (∀ i, (h : i < 8) → T.payload[i] = if i = S.fill.val then b else S.payload[i]) ∧
      (∀ j, j ≠ k → t.slot? j = s.slot? j) ∧
      t.fstate = .filling ∧ t.activeId = s.activeId ∧ t.slotCount = s.slotCount ∧ t.validate = s.validate ∧
      t.registered = s.registered ∧ t.draws = s.draws ∧ t.inputs = s.inputs ∧ t.out = Outputs.quiet

/-- T6_CHECKSUM_STATE (40_framer.md R106): in FILLING with fill 8 any byte leads to CLEAR; the slot keeps its
contents, its fill stays 8, ACTIVE_ID keeps its value. -/
def Obligations.ChecksumByteLeadsToClear : Prop :=
  ∀ (s : State) (b : Byte) (k : Nat) (S : Slot), s.fstate = .filling → s.activeSlot? = some (k, S) → S.fill = 8 →
    exec (.t6ChecksumState b) s = .next { s with fstate := .clear }

/-- T6_CHECKSUM_EMIT (40_framer.md R107): in FILLING with fill 8 the active slot is emitted with the received byte as
its checksum, and `pkt_ok` is the equality of the slot's checksum and that byte; nothing else changes. That the checksum
field is the received byte, not the computed sum, is the spec's own decision D7 (log 16). -/
def Obligations.ChecksumByteEmitsTheSlot : Prop :=
  ∀ (s : State) (b : Byte) (k : Nat) (S : Slot), s.fstate = .filling → s.activeSlot? = some (k, S) → S.fill = 8 →
    exec (.t6ChecksumEmit b) s = .next { s with out := { s.out with
      packet := some { header := S.header, id := S.id, payload := packPayload S.payload, checksum := b }
      pktOk := some (decide (checksumOf S.header S.id S.payload = b)) } }

/-- Outside its state or byte condition (30_encoding.md R63) a framer row, and a checksum comparison without a
computed checksum, is refused by name: the model's choice (log 11). -/
def Obligations.RowsOutsideTheirConditionAreRefused : Prop :=
  ∀ (s : State) (b : Byte),
    (s.fstate ≠ .clear → exec .t1Header s = .refused .rowNotSelected) ∧
    (s.fstate ≠ .clear ∨ b = 0x55 → exec (.t2Noise b) s = .refused .rowNotSelected) ∧
    (s.fstate ≠ .seekId ∨ isRegistered s.registered b = false →
      exec (.t3Id b) s = .refused .rowNotSelected) ∧
    (s.fstate ≠ .seekId ∨ isRegistered s.registered b = true →
      exec (.t4Reject b) s = .refused .rowNotSelected) ∧
    (s.fstate ≠ .filling →
      exec (.t5Payload b) s = .refused .rowNotSelected ∧ exec (.t6ChecksumState b) s = .refused .rowNotSelected ∧
      exec (.t6ChecksumEmit b) s = .refused .rowNotSelected ∧ exec .checksum s = .refused .rowNotSelected) ∧
    (s.fstate = .filling → s.active.fill = 8 → exec (.t5Payload b) s = .refused .rowNotSelected) ∧
    (s.fstate = .filling → s.active.fill.val < 8 →
      exec (.t6ChecksumState b) s = .refused .rowNotSelected ∧
      exec (.t6ChecksumEmit b) s = .refused .rowNotSelected) ∧
    (s.out.computed = none → exec (.checksumCompare b) s = .refused .rowNotSelected)

/-- A frame in progress cannot be interrupted (40_framer.md R109): whatever byte arrives while FILLING, it is stored
as payload while fill < 8, and taken as checksum, with the event of R107, when fill = 8. That the event's checksum field
is the received byte is the spec's own decision D7 (log 16). -/
def Obligations.NoByteInterruptsAFrame : Prop :=
  ∀ (s : State) (b : Byte) (k : Nat) (S : Slot), s.fstate = .filling → s.activeSlot? = some (k, S) →
    ∃ t T, stepOn (Decode.byteRecord b) s = .next t ∧ t.activeSlot? = some (k, T) ∧
      t.activeId = s.activeId ∧
      (S.fill.val < 8 → t.fstate = .filling ∧ t.out.packet = none ∧ T.fill.val = S.fill.val + 1 ∧
        (∀ i, (h : i < 8) → T.payload[i] = if i = S.fill.val then b else S.payload[i])) ∧
      (S.fill = 8 → t.fstate = .clear ∧ T = S ∧
        t.out.packet = some { header := S.header, id := S.id, payload := packPayload S.payload, checksum := b })

/-! ### Control records -/

/-- RESET (70_reset_and_hazards.md R220): a step with rst = 1 sets FSTATE to CLEAR and VALIDATE to 0 and emits
nothing, whatever the other inputs and the state; ACTIVE_ID and every slot field are unchanged. All of it but CLEAR is
the spec's own decision D8, D9 (log 16). -/
def Obligations.ResetWinsAndClears : Prop :=
  (∀ s : State, exec .reset s = .next { s with fstate := .clear, validate := false, out := Outputs.quiet }) ∧
  (∀ (s : State) (r : InputRecord), r.rst = true →
    stepOn r s = .next { s with fstate := .clear, validate := false, out := Outputs.quiet })

/-- IDLE (40_framer.md R115): a step with rst = 0 and in_valid = 0 changes no framer state and emits no event; it may
still write VALIDATE. The spec's own decision D1 (log 16). -/
def Obligations.IdleStepKeepsTheFramer : Prop :=
  (∀ s : State, exec .idle s = .next { s with out := Outputs.quiet }) ∧
  (∀ (s : State) (r : InputRecord), r.rst = false → r.inValid = false →
    stepOn r s = .next { s with out := Outputs.quiet, validate := if r.cfgWe then r.cfgValidate else s.validate })

/-- VALIDATE_WRITE (41_checksum.md R139): the write sets VALIDATE and has no effect on the framer state or on the
event of its own step; with rst = 1 it is lost. That a write is used from the next step on is the spec's own decision D8
(log 16). -/
def Obligations.ValidateWriteChangesOnlyValidate : Prop :=
  (∀ (s : State) (v : Bool), exec (.validateWrite v) s = .next { s with validate := v }) ∧
  (∀ (s t : State) (r : InputRecord), r.cfgWe = false → r.rst = false → stepOn r s = .next t →
    ∀ v, stepOn { r with cfgWe := true, cfgValidate := v } s = .next { t with validate := v }) ∧
  (∀ (s : State) (r : InputRecord) (v : Bool), r.rst = true →
    ∃ t, stepOn { r with cfgWe := true, cfgValidate := v } s = .next t ∧ t.validate = false)

/-! ### Checksum and delivery -/

/-- CHECKSUM (41_checksum.md R130): the sum of header, id and payload over the integers, mod 256, for every header, id
and payload; the row drives the model's net `computed` (log 13) with it and changes nothing else. -/
def Obligations.ChecksumIsTheSumMod256 : Prop :=
  (∀ (h id : Byte) (p : Payload),
    (checksumOf h id p).toNat =
      (h.toNat + id.toNat + p[0].toNat + p[1].toNat + p[2].toNat + p[3].toNat + p[4].toNat + p[5].toNat +
        p[6].toNat + p[7].toNat) % 256) ∧
  (∀ (s : State) (k : Nat) (S : Slot), s.fstate = .filling → s.activeSlot? = some (k, S) →
    exec .checksum s = .next { s with out := { s.out with
      computed := some (checksumOf S.header S.id S.payload) } })

/-- The arithmetic laws of the checksum (41_checksum.md R132): (a) the order of the ten bytes does not matter;
(b) changing exactly one of the ten bytes, or the checksum byte alone, makes a good frame bad; (c) two changes whose
differences add up to 0 mod 256 keep the checksum; (d) exactly one last payload byte makes a frame good. -/
def Obligations.ChecksumLaws : Prop :=
  (∀ v w : Vector Byte 10, v.toList.Perm w.toList → checksumTen v = checksumTen w) ∧
  (∀ (v w : Vector Byte 10) (c : Byte) (i : Nat) (h : i < 10), v[i] ≠ w[i] →
    (∀ j, (hj : j < 10) → j ≠ i → v[j] = w[j]) →
    compareOk (checksumTen v) c = true → compareOk (checksumTen w) c = false) ∧
  (∀ (v : Vector Byte 10) (c d : Byte), compareOk (checksumTen v) c = true → d ≠ c →
    compareOk (checksumTen v) d = false) ∧
  (∀ (v w : Vector Byte 10) (i j : Nat) (hi : i < 10) (hj : j < 10), i ≠ j →
    (∀ m, (hm : m < 10) → m ≠ i → m ≠ j → v[m] = w[m]) → (w[i] - v[i]) + (w[j] - v[j]) = 0 →
    checksumTen v = checksumTen w) ∧
  (∀ (id : Byte) (p : Payload) (c : Byte), ∃! x : Byte, checksumOf 0x55 id (p.set 7 x) = c)

/-- CHECKSUM_COMPARE (41_checksum.md R131): `pkt_ok` is the exact equality of the computed checksum and the received
byte; nothing else changes. -/
def Obligations.CompareIsExactEquality : Prop :=
  ∀ (s : State) (c b : Byte), s.out.computed = some c →
    exec (.checksumCompare b) s = .next { s with out := { s.out with pktOk := some (decide (c = b)) } }

/-- DELIVER (41_checksum.md R138): with an event, `pkt_deliver` is 1 exactly when VALIDATE is 0 or `pkt_ok` is 1, and
the packet and every other port and field stay; after any step, event or not, it is 1 exactly when `pkt_valid` is 1
and VALIDATE was 0 before the step or `pkt_ok` is 1. For a step without an event, where 10_state.md R31 leaves the port
unspecified and R138 has 0, the reading is the model's: the port is not driven, and so is not 1 (log 5). -/
def Obligations.DeliverFiltersOnlyBadPackets : Prop :=
  (∀ (s : State) (p : RawPacket) (ok : Bool), s.out.packet = some p → s.out.pktOk = some ok →
    ∃ d, exec .deliver s = .next { s with out := { s.out with pktDeliver := some d } } ∧
      (d = true ↔ s.validate = false ∨ ok = true)) ∧
  (∀ s t : State, step s = .next t →
    (t.out.pktDeliver = some true ↔
      t.out.packet.isSome = true ∧ (s.validate = false ∨ t.out.pktOk = some true)))

/-- Every completed frame is emitted, good or bad (40_framer.md R114), with the contents of its slot and the received
byte (the spec's D7), and its delivery is judged under VALIDATE as it stood before the step, also when that step writes
VALIDATE (41_checksum.md R138, 70_reset_and_hazards.md R228; the spec's own decision D8, log 16). -/
def Obligations.BadFramesAreEmittedAndJudgedByTheOldValidate : Prop :=
  ∀ (s : State) (r : InputRecord) (k : Nat) (S : Slot), s.fstate = .filling → s.activeSlot? = some (k, S) →
    S.fill = 8 → r.rst = false → r.inValid = true →
    ∃ t ok, stepOn r s = .next t ∧
      t.out.packet =
        some { header := S.header, id := S.id, payload := packPayload S.payload, checksum := r.inByte } ∧
      t.out.pktOk = some ok ∧ (ok = true ↔ checksumOf S.header S.id S.payload = r.inByte) ∧
      t.out.pktDeliver = some (decide (s.validate = false ∨ ok = true)) ∧
      t.validate = (if r.cfgWe then r.cfgValidate else s.validate)

/-- Without an event DELIVER and the views drive nothing: the model's choice (log 4, 5) for ports that
10_state.md R31 leaves unspecified. -/
def Obligations.WithoutAnEventNothingIsDriven : Prop :=
  ∀ s : State, s.out.packet = none →
    ∀ i ∈ [Instr.deliver, .viewU8, .viewI8, .viewI16, .viewI32], exec i s = .next s

/-! ### Payload and views -/

/-- The packing of `pkt_payload` (10_state.md R30, 30_encoding.md R61): byte `i` is bits `[8i+7:8i]`, which are
`F[8i+23:8i+16]` of the frame vector; and every 64-bit value is the packing of exactly one payload, so that the
statements below, which name the payload bytes, hold of every event. -/
def Obligations.PayloadPacking : Prop :=
  (∀ (p : Payload) (i : Nat) (h : i < 8), (packPayload p).extractLsb' (8 * i) 8 = p[i]) ∧
  (∀ (hd id cs : Byte) (p : Payload), (frameVector hd id p cs).extractLsb' 16 64 = packPayload p) ∧
  (∀ q : PayloadBits, ∃! p : Payload, packPayload p = q)

/-- VIEW_U8 (42_decoder.md R151): lane `i` reads as payload byte `i`, unsigned. -/
def Obligations.ViewU8ReadsUnsignedBytes : Prop :=
  ∀ (s : State) (k : RawPacket) (p : Payload), s.out.packet = some k → k.payload = packPayload p →
    ∃ v, exec .viewU8 s = .next { s with out := { s.out with decU8 := some v } } ∧
      ∀ i, (h : i < 8) → zext v[i] = p[i].toNat

/-- VIEW_I8 (42_decoder.md R152): lane `i` reads as payload byte `i`, two's complement. -/
def Obligations.ViewI8ReadsSignedBytes : Prop :=
  ∀ (s : State) (k : RawPacket) (p : Payload), s.out.packet = some k → k.payload = packPayload p →
    ∃ v, exec .viewI8 s = .next { s with out := { s.out with decI8 := some v } } ∧
      ∀ i, (h : i < 8) → sext v[i] = signedValue 8 p[i].toNat

/-- VIEW_I16 (42_decoder.md R153, 20_memory.md R41): lane `i` reads as the signed little-endian value of payload bytes
`2i` (low) and `2i+1` (high). -/
def Obligations.ViewI16IsLittleEndian : Prop :=
  ∀ (s : State) (k : RawPacket) (p : Payload), s.out.packet = some k → k.payload = packPayload p →
    ∃ v, exec .viewI16 s = .next { s with out := { s.out with decI16 := some v } } ∧
      ∀ i, (h : i < 4) → sext v[i] = signedValue 16 (p[2 * i].toNat + 256 * p[2 * i + 1].toNat)

/-- VIEW_I32 (42_decoder.md R154, 20_memory.md R42): lane `j` reads as the signed little-endian value of payload bytes
`4j` (lowest) to `4j+3` (highest). The little-endian order of int32 is the spec's own decision D6 (log 16). -/
def Obligations.ViewI32IsLittleEndian : Prop :=
  ∀ (s : State) (k : RawPacket) (p : Payload), s.out.packet = some k → k.payload = packPayload p →
    ∃ v, exec .viewI32 s = .next { s with out := { s.out with decI32 := some v } } ∧
      ∀ j, (h : j < 2) → sext v[j] = signedValue 32 (p[4 * j].toNat + 256 * p[4 * j + 1].toNat +
        65536 * p[4 * j + 2].toNat + 16777216 * p[4 * j + 3].toNat)

/-- Mixed-width views overlap (20_memory.md R43): int32 cell `j` is int16 cells `2j` (low half) and `2j+1` (high
half). It rests on the spec's own decision D6, int32 little-endian (log 16). -/
def Obligations.CellsOverlapAsHalves : Prop :=
  ∀ (p : PayloadBits) (j : Nat) (h : j < 2),
    zext (viewI32Of p)[j] = zext (viewI16Of p)[2 * j + 1] * 65536 + zext (viewI16Of p)[2 * j]

/-! ### Packet ids -/

/-- The lanes of the kinds whose assignment the source states (42_decoder.md R161, R163, R167, R169): Acceleration and
Angles on int16 cells 0 to 3, Orientation's X, Y, Z, W on the same cells, GPSCoordinates on int32 cells 0 and 1. -/
def Obligations.StatedLanes : Prop :=
  ∀ (s : State) (k : RawPacket), s.out.packet = some k →
    let v := viewI16Of k.payload
    let w := viewI32Of k.payload
    (k.id = 0x51 → exec .idAcceleration s =
      .next { s with out := { s.out with lanes := some (.axes v[0] v[1] v[2] v[3]) } }) ∧
    (k.id = 0x53 → exec .idAngles s =
      .next { s with out := { s.out with lanes := some (.angles v[0] v[1] v[2] v[3]) } }) ∧
    (k.id = 0x57 → exec .idGpsCoordinates s =
      .next { s with out := { s.out with lanes := some (.coordinates w[0] w[1]) } }) ∧
    (k.id = 0x59 → exec .idOrientation s =
      .next { s with out := { s.out with lanes := some (.quaternion v[0] v[1] v[2] v[3]) } })

/-- The lanes of the kinds whose assignment the spec derives (42_decoder.md R162, R164, log 17): AngularVelocity as
Acceleration, and the Magnetometer's fields 0 to 2 with the temperature on cell 3. -/
def Obligations.DerivedLanes : Prop :=
  ∀ (s : State) (k : RawPacket), s.out.packet = some k →
    let v := viewI16Of k.payload
    (k.id = 0x52 → exec .idAngularVelocity s =
      .next { s with out := { s.out with lanes := some (.axes v[0] v[1] v[2] v[3]) } }) ∧
    (k.id = 0x54 → exec .idMagnetometer s =
      .next { s with out := { s.out with lanes := some (.fields v[0] v[1] v[2] v[3]) } })

/-- The kinds without a lane assignment complete with none (42_decoder.md R160, R165, R166, R170), and GPSGroundSpeed
is marked unsupported (R168); the raw views and every other port and field stay. -/
def Obligations.KindsWithoutLanes : Prop :=
  ∀ (s : State) (k : RawPacket), s.out.packet = some k →
    (k.id = 0x50 → exec .idRtc s = .next { s with out := { s.out with lanes := some .unassigned } }) ∧
    (k.id = 0x55 → exec .idDataPortStatus s = .next { s with out := { s.out with lanes := some .unassigned } }) ∧
    (k.id = 0x56 → exec .idAltimeter s = .next { s with out := { s.out with lanes := some .unassigned } }) ∧
    (k.id = 0x58 → exec .idGpsGroundSpeed s = .next { s with out := { s.out with lanes := some .unsupported } }) ∧
    (k.id = 0x5A → exec .idGpsAccuracy s = .next { s with out := { s.out with lanes := some .unassigned } })

/-- Reading an event under another kind than its `pkt_id` is refused (42_decoder.md R155), and so is reading without
an event (10_state.md R31): log 12. -/
def Obligations.LanesUnderAnotherKindAreRefused : Prop :=
  ∀ (s : State) (k : PacketId),
    (∀ p, s.out.packet = some p → p.id ≠ idCode k → exec (Decode.idRow k) s = .refused .wrongKind) ∧
    (s.out.packet = none → exec (Decode.idRow k) s = .refused .noEvent)

/-- The slot map (20_memory.md R47): slot k belongs to id 0x50 + k, under the kinds' names. -/
def Obligations.SlotMapOfThePacketIds : Prop :=
  (∀ k : PacketId, packetKind (idCode k) = some k) ∧
  [PacketId.rtc, .acceleration, .angularVelocity, .angles, .magnetometer, .dataPortStatus, .altimeter,
    .gpsCoordinates, .gpsGroundSpeed, .orientation, .gpsAccuracy].map (fun k => slotIndex (idCode k)) =
    (List.range 11).map some ∧
  (∀ b : Byte, packetKind b = none ↔ (b.toNat < 0x50 ∨ 0x5A < b.toNat)) ∧
  (∀ b : Byte, slotIndex b = if b.toNat < 0x50 then none else some (b.toNat - 0x50))

/-! ### Runs -/

/-- Empty input is a no-op (40_framer.md R113). -/
def Obligations.EmptyFeedIsANoOp : Prop := ∀ s : State, feed [] s = some (s, [])

/-- Chunking does not matter (40_framer.md R112): feeding chunks in order gives the same sequence of events and the
same final state as feeding their concatenation. -/
def Obligations.ChunkingDoesNotMatter : Prop :=
  ∀ (cs : List (List Byte)) (s : State), feedChunks cs s = feed cs.flatten s

/-- Idle records between others change nothing (40_framer.md R112, R115): the same events and, the ports of the last
step apart, the same final state as without them. -/
def Obligations.IdleRecordsDoNotMatter : Prop :=
  ∀ (rs : List InputRecord) (s t : State) (os : List Outputs), drive rs s = some (t, os) →
    ∃ u qs, drive (rs.filter fun r => !isIdleRecord r) s = some (u, qs) ∧ eventsOf qs = eventsOf os ∧
      u = { t with out := u.out }

/-- Every event needs eleven consumed bytes (40_framer.md R111): from a state with the invariant of 10_state.md R25, a
feed of m bytes yields at most (m + r) / 11 events, r being the bytes of the current frame already consumed. -/
def Obligations.ElevenBytesPerEvent : Prop :=
  ∀ (bs : List Byte) (s t : State) (es : List Event), s.inv = true → feed bs s = some (t, es) →
    es.length ≤ (bs.length + s.consumed) / 11 ∧ 11 * es.length + t.consumed ≤ bs.length + s.consumed

/-- Return to CLEAR (40_framer.md R116). From FILLING with fill n it takes exactly 9 − n bytes, whatever they are, and
the last of them makes the one event; from SEEKID it takes 1 byte that is not registered, or a registered one and 9
more. -/
def Obligations.FramerReturnsToClear : Prop :=
  (∀ (s : State) (k : Nat) (S : Slot) (bs : List Byte), s.fstate = .filling → s.activeSlot? = some (k, S) →
    (bs.length < 9 - S.fill.val → ∃ t, feed bs s = some (t, []) ∧ t.fstate = .filling) ∧
    (bs.length = 9 - S.fill.val → ∃ t e, feed bs s = some (t, [e]) ∧ t.fstate = .clear)) ∧
  (∀ (s : State) (b : Byte) (bs : List Byte), s.fstate = .seekId →
    (isRegistered s.registered b = false → ∃ t, feed [b] s = some (t, []) ∧ t.fstate = .clear) ∧
    (isRegistered s.registered b = true → bs.length < 9 →
      ∃ t, feed (b :: bs) s = some (t, []) ∧ t.fstate = .filling) ∧
    (isRegistered s.registered b = true → bs.length = 9 →
      ∃ t e, feed (b :: bs) s = some (t, [e]) ∧ t.fstate = .clear))

/-- Noise without a header byte is absorbed (40_framer.md R117): from CLEAR, bytes none of which is 0x55 make no event
and change nothing but the ports of the last step. -/
def Obligations.NoiseIsAbsorbed : Prop :=
  ∀ (bs : List Byte) (s : State), s.fstate = .clear → (0x55 : Byte) ∉ bs →
    ∃ t, feed bs s = some (t, []) ∧ t = { s with out := t.out }

/-- Frames in phase stay in phase (40_framer.md R118): from CLEAR, back-to-back frames with registered ids, whatever
their payload and checksum bytes and with any idle records between their bytes, make exactly one event each, in
order, and leave the framer in CLEAR. -/
def Obligations.FramesInPhaseStayInPhase : Prop :=
  ∀ (fs : List Frame) (rs : List InputRecord) (s : State), s.fstate = .clear →
    (∀ f ∈ fs, isRegistered s.registered f.id = true) →
    rs.filter (fun r => !isIdleRecord r) = (fs.flatMap Frame.bytes).map Decode.byteRecord →
    ∃ t os, drive rs s = some (t, os) ∧ eventsOf os = fs.map Frame.event ∧ t.fstate = .clear

/-- Resynchronisation after garbage (40_framer.md R119): from CLEAR, a good frame between two garbage sequences that
contain no 0x55 makes exactly one event, that frame with ok = 1, and the framer ends in CLEAR. -/
def Obligations.ResynchronisesAfterGarbage : Prop :=
  ∀ (g h : List Byte) (f : Frame) (s : State), s.fstate = .clear → isRegistered s.registered f.id = true →
    f.checksum = checksumOf 0x55 f.id f.payload → (0x55 : Byte) ∉ g → (0x55 : Byte) ∉ h →
    ∃ t, feed (g ++ f.bytes ++ h) s = some (t, [f.event]) ∧ f.event.ok = true ∧ t.fstate = .clear

/-- Double header (70_reset_and_hazards.md R227): after `55 55` read from CLEAR, (a) if 0x55 is registered the next
nine bytes form a false frame of id 0x55; (b) if it is not, an id byte that follows is noise and nothing is
emitted. -/
def Obligations.DoubleHeaderLosesTheFrame : Prop :=
  ∀ (s : State) (p : Payload) (c id : Byte), s.fstate = .clear →
    (isRegistered s.registered 0x55 = true →
      ∃ t, feed (0x55 :: 0x55 :: (p.toList ++ [c])) s = some (t, [frameEvent 0x55 p c]) ∧ t.fstate = .clear) ∧
    (isRegistered s.registered 0x55 = false → id ≠ 0x55 →
      ∃ t, feed [0x55, 0x55, id] s = some (t, []) ∧ t.fstate = .clear)

/-- What the spec leaves unspecified cannot be seen (10_state.md R26, R32; 00_scope.md R7): two states that agree on the
framer state, VALIDATE, the registered ids and the partial frame give the same output records for every input
sequence, whatever ACTIVE_ID outside FILLING, the other slots, stale payload bytes and SLOT_COUNT are. -/
def Obligations.UnspecifiedStateIsInvisible : Prop :=
  ∀ (rs : List InputRecord) (s t : State), s.agree t →
    ∃ u v os, drive rs s = some (u, os) ∧ drive rs t = some (v, os) ∧ u.agree v

/-- The start of a run (70_reset_and_hazards.md R221): from any state whatever, one reset step gives a state that
agrees with the model's reset state (with its own parameters and inputs), with no event. -/
def Obligations.OneResetStepReachesTheResetState : Prop :=
  ∀ s : State, ∃ t, stepOn Decode.resetRecord s = .next t ∧ t.out = Outputs.quiet ∧
    t.agree { State.reset with registered := s.registered, inputs := s.inputs }

/-- The reset values the spec gives (10_state.md R22, R28, R32; 00_scope.md R6, R10): CLEAR, VALIDATE = 0,
pkt_valid = 0, and by default all of 0x50..0x5A registered and nothing else. -/
def Obligations.ResetValuesOfTheSpec : Prop :=
  State.reset.fstate = .clear ∧ State.reset.validate = false ∧ State.reset.out.packet = none ∧
  State.reset.slotCount = 11 ∧
  ∀ b : Byte, isRegistered State.reset.registered b = true ↔ (0x50 ≤ b.toNat ∧ b.toNat ≤ 0x5A)

/-- The pseudo-operations FRAME16 and FRAME32 (30_encoding.md R70) carry their values: the decoder's int16 and int32
views of the payload they expand to give back the integers. -/
def Obligations.PseudoFramesCarryTheirValues : Prop :=
  (∀ c0 c1 c2 c3 : Int, (∀ c ∈ [c0, c1, c2, c3], -32768 ≤ c ∧ c ≤ 32767) →
    (viewI16Of (packPayload (payload16 c0 c1 c2 c3))).toList.map sext = [c0, c1, c2, c3]) ∧
  (∀ d0 d1 : Int, (∀ d ∈ [d0, d1], -2147483648 ≤ d ∧ d ≤ 2147483647) →
    (viewI32Of (packPayload (payload32 d0 d1))).toList.map sext = [d0, d1])

/-- The machine behind the host's interface runs as `drive` does: as many steps as there are records, from the state
with those records scheduled, end in the state `drive` ends in. That records are scheduled in State and taken one a step
is the model's choice (log 3). -/
def Obligations.CoreRunsAsDriven : Prop :=
  ∀ (rs : List InputRecord) (s t : State) (os : List Outputs), drive rs s = some (t, os) →
    Host.Core.run Sys2Proof.core rs.length { s with inputs := rs ++ s.inputs } = .next t
end

