-- ==== Sys2Proof/Laws/State.lean ====
section
/-! SUPPORT. One lemma per field per setter of the state, true by rfl, so that no later proof unfolds a record update;
and what the other readers of the state (slot access, the active slot, the position, SLOT_COUNT) make of a setter. -/

namespace Sys2Proof.Machine

variable (s : State)

@[simp] theorem State.setFState_fstate (f : FState) : (s.setFState f).fstate = f := rfl
@[simp] theorem State.setFState_activeId (f : FState) : (s.setFState f).activeId = s.activeId := rfl
@[simp] theorem State.setFState_slots (f : FState) : (s.setFState f).slots = s.slots := rfl
@[simp] theorem State.setFState_reserved (f : FState) : (s.setFState f).reserved = s.reserved := rfl
@[simp] theorem State.setFState_validate (f : FState) : (s.setFState f).validate = s.validate := rfl
@[simp] theorem State.setFState_registered (f : FState) : (s.setFState f).registered = s.registered := rfl
@[simp] theorem State.setFState_draws (f : FState) : (s.setFState f).draws = s.draws := rfl
@[simp] theorem State.setFState_inputs (f : FState) : (s.setFState f).inputs = s.inputs := rfl
@[simp] theorem State.setFState_out (f : FState) : (s.setFState f).out = s.out := rfl

@[simp] theorem State.setActiveId_fstate (b : Byte) : (s.setActiveId b).fstate = s.fstate := rfl
@[simp] theorem State.setActiveId_activeId (b : Byte) : (s.setActiveId b).activeId = b := rfl
@[simp] theorem State.setActiveId_slots (b : Byte) : (s.setActiveId b).slots = s.slots := rfl
@[simp] theorem State.setActiveId_reserved (b : Byte) : (s.setActiveId b).reserved = s.reserved := rfl
@[simp] theorem State.setActiveId_validate (b : Byte) : (s.setActiveId b).validate = s.validate := rfl
@[simp] theorem State.setActiveId_registered (b : Byte) : (s.setActiveId b).registered = s.registered := rfl
@[simp] theorem State.setActiveId_draws (b : Byte) : (s.setActiveId b).draws = s.draws := rfl
@[simp] theorem State.setActiveId_inputs (b : Byte) : (s.setActiveId b).inputs = s.inputs := rfl
@[simp] theorem State.setActiveId_out (b : Byte) : (s.setActiveId b).out = s.out := rfl

@[simp] theorem State.setValidate_fstate (v : Bool) : (s.setValidate v).fstate = s.fstate := rfl
@[simp] theorem State.setValidate_activeId (v : Bool) : (s.setValidate v).activeId = s.activeId := rfl
@[simp] theorem State.setValidate_slots (v : Bool) : (s.setValidate v).slots = s.slots := rfl
@[simp] theorem State.setValidate_reserved (v : Bool) : (s.setValidate v).reserved = s.reserved := rfl
@[simp] theorem State.setValidate_validate (v : Bool) : (s.setValidate v).validate = v := rfl
@[simp] theorem State.setValidate_registered (v : Bool) : (s.setValidate v).registered = s.registered := rfl
@[simp] theorem State.setValidate_draws (v : Bool) : (s.setValidate v).draws = s.draws := rfl
@[simp] theorem State.setValidate_inputs (v : Bool) : (s.setValidate v).inputs = s.inputs := rfl
@[simp] theorem State.setValidate_out (v : Bool) : (s.setValidate v).out = s.out := rfl

@[simp] theorem State.setOut_fstate (o : Outputs) : (s.setOut o).fstate = s.fstate := rfl
@[simp] theorem State.setOut_activeId (o : Outputs) : (s.setOut o).activeId = s.activeId := rfl
@[simp] theorem State.setOut_slots (o : Outputs) : (s.setOut o).slots = s.slots := rfl
@[simp] theorem State.setOut_reserved (o : Outputs) : (s.setOut o).reserved = s.reserved := rfl
@[simp] theorem State.setOut_validate (o : Outputs) : (s.setOut o).validate = s.validate := rfl
@[simp] theorem State.setOut_registered (o : Outputs) : (s.setOut o).registered = s.registered := rfl
@[simp] theorem State.setOut_draws (o : Outputs) : (s.setOut o).draws = s.draws := rfl
@[simp] theorem State.setOut_inputs (o : Outputs) : (s.setOut o).inputs = s.inputs := rfl
@[simp] theorem State.setOut_out (o : Outputs) : (s.setOut o).out = o := rfl

@[simp] theorem State.setInputs_fstate (rs : List InputRecord) : (s.setInputs rs).fstate = s.fstate := rfl
@[simp] theorem State.setInputs_activeId (rs : List InputRecord) : (s.setInputs rs).activeId = s.activeId := rfl
@[simp] theorem State.setInputs_slots (rs : List InputRecord) : (s.setInputs rs).slots = s.slots := rfl
@[simp] theorem State.setInputs_reserved (rs : List InputRecord) : (s.setInputs rs).reserved = s.reserved := rfl
@[simp] theorem State.setInputs_validate (rs : List InputRecord) : (s.setInputs rs).validate = s.validate := rfl
@[simp] theorem State.setInputs_registered (rs : List InputRecord) : (s.setInputs rs).registered = s.registered := rfl
@[simp] theorem State.setInputs_draws (rs : List InputRecord) : (s.setInputs rs).draws = s.draws := rfl
@[simp] theorem State.setInputs_inputs (rs : List InputRecord) : (s.setInputs rs).inputs = rs := rfl
@[simp] theorem State.setInputs_out (rs : List InputRecord) : (s.setInputs rs).out = s.out := rfl

@[simp] theorem State.quiet_fstate : s.quiet.fstate = s.fstate := rfl
@[simp] theorem State.quiet_activeId : s.quiet.activeId = s.activeId := rfl
@[simp] theorem State.quiet_slots : s.quiet.slots = s.slots := rfl
@[simp] theorem State.quiet_reserved : s.quiet.reserved = s.reserved := rfl
@[simp] theorem State.quiet_validate : s.quiet.validate = s.validate := rfl
@[simp] theorem State.quiet_registered : s.quiet.registered = s.registered := rfl
@[simp] theorem State.quiet_draws : s.quiet.draws = s.draws := rfl
@[simp] theorem State.quiet_inputs : s.quiet.inputs = s.inputs := rfl
@[simp] theorem State.quiet_out : s.quiet.out = Outputs.quiet := rfl

@[simp] theorem State.beginStep_fstate : s.beginStep.fstate = s.fstate := rfl
@[simp] theorem State.beginStep_activeId : s.beginStep.activeId = s.activeId := rfl
@[simp] theorem State.beginStep_slots : s.beginStep.slots = s.slots := rfl
@[simp] theorem State.beginStep_reserved : s.beginStep.reserved = s.reserved := rfl
@[simp] theorem State.beginStep_validate : s.beginStep.validate = s.validate := rfl
@[simp] theorem State.beginStep_registered : s.beginStep.registered = s.registered := rfl
@[simp] theorem State.beginStep_draws : s.beginStep.draws = s.draws := rfl
@[simp] theorem State.beginStep_inputs : s.beginStep.inputs = s.inputs.tail := rfl
@[simp] theorem State.beginStep_out : s.beginStep.out = Outputs.quiet := rfl

@[simp] theorem State.setFState_slot? (f : FState) (k : Nat) : (s.setFState f).slot? k = s.slot? k := rfl
@[simp] theorem State.setFState_slotCount (f : FState) : (s.setFState f).slotCount = s.slotCount := rfl
@[simp] theorem State.setFState_activeSlot? (f : FState) : (s.setFState f).activeSlot? = s.activeSlot? := rfl
@[simp] theorem State.setFState_active (f : FState) : (s.setFState f).active = s.active := rfl

@[simp] theorem State.setActiveId_slot? (b : Byte) (k : Nat) : (s.setActiveId b).slot? k = s.slot? k := rfl
@[simp] theorem State.setActiveId_slotCount (b : Byte) : (s.setActiveId b).slotCount = s.slotCount := rfl

@[simp] theorem State.setValidate_slot? (v : Bool) (k : Nat) : (s.setValidate v).slot? k = s.slot? k := rfl
@[simp] theorem State.setValidate_slotCount (v : Bool) : (s.setValidate v).slotCount = s.slotCount := rfl
@[simp] theorem State.setValidate_activeSlot? (v : Bool) : (s.setValidate v).activeSlot? = s.activeSlot? := rfl
@[simp] theorem State.setValidate_active (v : Bool) : (s.setValidate v).active = s.active := rfl
@[simp] theorem State.setValidate_position (v : Bool) : (s.setValidate v).position = s.position := rfl

@[simp] theorem State.setOut_slot? (o : Outputs) (k : Nat) : (s.setOut o).slot? k = s.slot? k := rfl
@[simp] theorem State.setOut_slotCount (o : Outputs) : (s.setOut o).slotCount = s.slotCount := rfl
@[simp] theorem State.setOut_activeSlot? (o : Outputs) : (s.setOut o).activeSlot? = s.activeSlot? := rfl
@[simp] theorem State.setOut_active (o : Outputs) : (s.setOut o).active = s.active := rfl
@[simp] theorem State.setOut_position (o : Outputs) : (s.setOut o).position = s.position := rfl

@[simp] theorem State.setInputs_slot? (rs : List InputRecord) (k : Nat) : (s.setInputs rs).slot? k = s.slot? k := rfl
@[simp] theorem State.setInputs_slotCount (rs : List InputRecord) : (s.setInputs rs).slotCount = s.slotCount := rfl
@[simp] theorem State.setInputs_activeSlot? (rs : List InputRecord) : (s.setInputs rs).activeSlot? = s.activeSlot? := rfl
@[simp] theorem State.setInputs_active (rs : List InputRecord) : (s.setInputs rs).active = s.active := rfl
@[simp] theorem State.setInputs_position (rs : List InputRecord) : (s.setInputs rs).position = s.position := rfl

@[simp] theorem State.quiet_slot? (k : Nat) : s.quiet.slot? k = s.slot? k := rfl
@[simp] theorem State.quiet_slotCount : s.quiet.slotCount = s.slotCount := rfl
@[simp] theorem State.quiet_activeSlot? : s.quiet.activeSlot? = s.activeSlot? := rfl
@[simp] theorem State.quiet_active : s.quiet.active = s.active := rfl
@[simp] theorem State.quiet_position : s.quiet.position = s.position := rfl

@[simp] theorem State.beginStep_slot? (k : Nat) : s.beginStep.slot? k = s.slot? k := rfl
@[simp] theorem State.beginStep_slotCount : s.beginStep.slotCount = s.slotCount := rfl
@[simp] theorem State.beginStep_activeSlot? : s.beginStep.activeSlot? = s.activeSlot? := rfl
@[simp] theorem State.beginStep_active : s.beginStep.active = s.active := rfl
@[simp] theorem State.beginStep_position : s.beginStep.position = s.position := rfl

@[simp] theorem Outputs.quiet_packet : Outputs.quiet.packet = none := rfl
@[simp] theorem Outputs.quiet_pktOk : Outputs.quiet.pktOk = none := rfl
@[simp] theorem Outputs.quiet_pktDeliver : Outputs.quiet.pktDeliver = none := rfl
@[simp] theorem Outputs.quiet_decU8 : Outputs.quiet.decU8 = none := rfl
@[simp] theorem Outputs.quiet_decI8 : Outputs.quiet.decI8 = none := rfl
@[simp] theorem Outputs.quiet_decI16 : Outputs.quiet.decI16 = none := rfl
@[simp] theorem Outputs.quiet_decI32 : Outputs.quiet.decI32 = none := rfl
@[simp] theorem Outputs.quiet_computed : Outputs.quiet.computed = none := rfl
@[simp] theorem Outputs.quiet_lanes : Outputs.quiet.lanes = none := rfl

@[simp] theorem State.quiet_quiet : s.quiet.quiet = s.quiet := rfl
@[simp] theorem State.setOut_setOut (o q : Outputs) : (s.setOut o).setOut q = s.setOut q := rfl
@[simp] theorem State.setOut_quiet (o : Outputs) : (s.setOut o).quiet = s.quiet := rfl

/-! What `setSlot` leaves alone. -/

@[simp] theorem State.setSlot_fstate (k : Nat) (v : Slot) : (s.setSlot k v).fstate = s.fstate := by
  unfold State.setSlot; split <;> rfl

@[simp] theorem State.setSlot_activeId (k : Nat) (v : Slot) : (s.setSlot k v).activeId = s.activeId := by
  unfold State.setSlot; split <;> rfl

@[simp] theorem State.setSlot_validate (k : Nat) (v : Slot) : (s.setSlot k v).validate = s.validate := by
  unfold State.setSlot; split <;> rfl

@[simp] theorem State.setSlot_registered (k : Nat) (v : Slot) : (s.setSlot k v).registered = s.registered := by
  unfold State.setSlot; split <;> rfl

@[simp] theorem State.setSlot_inputs (k : Nat) (v : Slot) : (s.setSlot k v).inputs = s.inputs := by
  unfold State.setSlot; split <;> rfl

@[simp] theorem State.setSlot_out (k : Nat) (v : Slot) : (s.setSlot k v).out = s.out := by
  unfold State.setSlot; split <;> rfl

@[simp] theorem State.setSlot_draws (k : Nat) (v : Slot) : (s.setSlot k v).draws = s.draws := by
  unfold State.setSlot; split <;> rfl

@[simp] theorem State.setSlot_slotCount (k : Nat) (v : Slot) : (s.setSlot k v).slotCount = s.slotCount := by
  unfold State.setSlot
  split
  · rfl
  · unfold State.slotCount
    cases s.reserved <;> rfl

/-! What `drawIfAbsent`, `putActive` and `openSlot` leave alone. -/

@[simp] theorem State.drawIfAbsent_fstate : s.drawIfAbsent.fstate = s.fstate := by
  unfold State.drawIfAbsent; split <;> rfl

@[simp] theorem State.drawIfAbsent_activeId : s.drawIfAbsent.activeId = s.activeId := by
  unfold State.drawIfAbsent; split <;> rfl

@[simp] theorem State.drawIfAbsent_validate : s.drawIfAbsent.validate = s.validate := by
  unfold State.drawIfAbsent; split <;> rfl

@[simp] theorem State.drawIfAbsent_registered : s.drawIfAbsent.registered = s.registered := by
  unfold State.drawIfAbsent; split <;> rfl

@[simp] theorem State.drawIfAbsent_inputs : s.drawIfAbsent.inputs = s.inputs := by
  unfold State.drawIfAbsent; split <;> rfl

@[simp] theorem State.drawIfAbsent_out : s.drawIfAbsent.out = s.out := by
  unfold State.drawIfAbsent; split <;> rfl

@[simp] theorem State.drawIfAbsent_slot? (k : Nat) : s.drawIfAbsent.slot? k = s.slot? k := by
  unfold State.drawIfAbsent; split <;> rfl

@[simp] theorem State.drawIfAbsent_slotCount : s.drawIfAbsent.slotCount = s.slotCount := by
  unfold State.drawIfAbsent; split <;> rfl

@[simp] theorem State.putActive_fstate (v : Slot) : (s.putActive v).fstate = s.fstate := by
  unfold State.putActive; split <;> simp

@[simp] theorem State.putActive_activeId (v : Slot) : (s.putActive v).activeId = s.activeId := by
  unfold State.putActive; split <;> simp

@[simp] theorem State.putActive_validate (v : Slot) : (s.putActive v).validate = s.validate := by
  unfold State.putActive; split <;> simp

@[simp] theorem State.putActive_registered (v : Slot) : (s.putActive v).registered = s.registered := by
  unfold State.putActive; split <;> simp

@[simp] theorem State.putActive_inputs (v : Slot) : (s.putActive v).inputs = s.inputs := by
  unfold State.putActive; split <;> simp

@[simp] theorem State.putActive_out (v : Slot) : (s.putActive v).out = s.out := by
  unfold State.putActive; split <;> simp

@[simp] theorem State.putActive_slotCount (v : Slot) : (s.putActive v).slotCount = s.slotCount := by
  unfold State.putActive; split <;> simp

@[simp] theorem State.openSlot_fstate (b : Byte) : (s.openSlot b).fstate = s.fstate := by
  unfold State.openSlot; repeat' split
  all_goals simp

@[simp] theorem State.openSlot_activeId (b : Byte) : (s.openSlot b).activeId = s.activeId := by
  unfold State.openSlot; repeat' split
  all_goals simp

@[simp] theorem State.openSlot_validate (b : Byte) : (s.openSlot b).validate = s.validate := by
  unfold State.openSlot; repeat' split
  all_goals simp

@[simp] theorem State.openSlot_registered (b : Byte) : (s.openSlot b).registered = s.registered := by
  unfold State.openSlot; repeat' split
  all_goals simp

@[simp] theorem State.openSlot_inputs (b : Byte) : (s.openSlot b).inputs = s.inputs := by
  unfold State.openSlot; repeat' split
  all_goals simp

@[simp] theorem State.openSlot_out (b : Byte) : (s.openSlot b).out = s.out := by
  unfold State.openSlot; repeat' split
  all_goals simp

@[simp] theorem State.openSlot_draws (b : Byte) : (s.openSlot b).draws = s.draws := by
  unfold State.openSlot; repeat' split
  all_goals simp

@[simp] theorem State.openSlot_slotCount (b : Byte) : (s.openSlot b).slotCount = s.slotCount := by
  unfold State.openSlot; repeat' split
  all_goals simp

end Sys2Proof.Machine
end

