-- ==== Sys2Proof/Laws/Ops.lean ====
section
/-! SUPPORT. What each shared operation can do: the id map, slot access (a read after a write, and a write leaves every
other slot alone), the active slot, the position and the guard of the FILLING rows. -/

namespace Sys2Proof.Machine

/-! ### The id map -/

theorem slotIndex_eq_some {b : Byte} {k : Nat} : slotIndex b = some k ↔ 0x50 ≤ b.toNat ∧ k = b.toNat - 0x50 := by
  unfold slotIndex
  have : Config.idBase.toNat = 0x50 := rfl
  simp only [this]
  split <;> simp <;> omega

theorem slotIndex_injective {b c : Byte} {k : Nat} (hb : slotIndex b = some k) (hc : slotIndex c = some k) : b = c := by
  rw [slotIndex_eq_some] at hb hc
  exact BitVec.eq_of_toNat_eq (by omega)

/-- A registered id is one of 0x50..0x5A, so that it selects one of slots 0..10 (00_scope.md R6, R7). -/
theorem isRegistered_slotIndex {reg : Registered} {b : Byte} (h : isRegistered reg b = true) :
    ∃ k, k < 11 ∧ slotIndex b = some k := by
  unfold isRegistered at h
  split at h
  · next k hk =>
    split at h
    · next hlt => exact ⟨k, hlt, hk⟩
    · cases h
  · cases h

theorem packetKind_idCode (k : PacketId) : packetKind (idCode k) = some k := by cases k <;> rfl

/-! ### Slots -/

theorem State.slot?_of_lt (s : State) {k : Nat} (h : k < 11) : s.slot? k = some s.slots[k] := by
  simp [State.slot?, h]

/-- A read after a write to the same slot gives what was written. -/
theorem State.setSlot_slot?_same (s : State) {k : Nat} {old : Slot} (v : Slot) (h : s.slot? k = some old) :
    (s.setSlot k v).slot? k = some v := by
  by_cases hk : k < 11
  · simp [State.setSlot, State.slot?, hk]
  · cases hr : s.reserved with
    | none => simp [State.slot?, hk, hr] at h
    | some r =>
      have hlt : k - 11 < 21 := by
        simp only [State.slot?, hk, hr, dite_false] at h
        exact (Vector.getElem?_eq_some_iff.mp h).1
      simp [State.setSlot, State.slot?, hk, hr, hlt]

/-- A write leaves every other slot alone. -/
theorem State.setSlot_slot?_other (s : State) {j k : Nat} (v : Slot) (h : j ≠ k) :
    (s.setSlot k v).slot? j = s.slot? j := by
  by_cases hk : k < 11 <;> by_cases hj : j < 11
  · simp [State.setSlot, State.slot?, hk, hj, Ne.symm h]
  · simp [State.setSlot, State.slot?, hk, hj]
  · simp [State.setSlot, State.slot?, hk, hj]
  · have : k - 11 ≠ j - 11 := by omega
    cases hr : s.reserved <;>
      simp [State.setSlot, State.slot?, hk, hj, hr, this]

/-- A slot that is not there stays away, whatever is written. -/
theorem State.setSlot_slot?_isSome (s : State) (j k : Nat) (v : Slot) :
    ((s.setSlot k v).slot? j).isSome = (s.slot? j).isSome := by
  by_cases h : j = k
  · subst h
    cases hs : s.slot? j with
    | some old => rw [State.setSlot_slot?_same s v hs]; rfl
    | none =>
      have hk : ¬ j < 11 := fun hk => by rw [State.slot?_of_lt s hk] at hs; cases hs
      cases hr : s.reserved with
      | none => simp [State.setSlot, State.slot?, hk, hr]
      | some r =>
        have hlt : ¬ j - 11 < 21 := by
          intro hlt
          simp [State.slot?, hk, hr, hlt] at hs
        simp [State.setSlot, State.slot?, hk, hr, hlt]
  · rw [State.setSlot_slot?_other s v h]

/-! ### The active slot and the position -/

theorem State.activeSlot?_eq_some {s : State} {k : Nat} {S : Slot} :
    s.activeSlot? = some (k, S) ↔ slotIndex s.activeId = some k ∧ s.slot? k = some S := by
  unfold State.activeSlot?
  constructor
  · intro h
    split at h
    · cases h
    · next j hj =>
      obtain ⟨T, hT, he⟩ := Option.map_eq_some_iff.mp h
      cases he
      exact ⟨hj, hT⟩
  · rintro ⟨hk, hS⟩
    simp [hk, hS]

/-- Writing the active slot leaves it active, with what was written. -/
theorem State.setSlot_activeSlot? {s : State} {k : Nat} {S : Slot} (h : s.activeSlot? = some (k, S)) (v : Slot) :
    (s.setSlot k v).activeSlot? = some (k, v) := by
  rw [State.activeSlot?_eq_some] at h ⊢
  exact ⟨by rw [State.setSlot_activeId]; exact h.1, State.setSlot_slot?_same s v h.2⟩

/-- Initialising the slot of an id and making that id active makes the slot the active one. -/
theorem State.activeSlot?_of_id {s : State} {b : Byte} {k : Nat} {old : Slot} (hk : slotIndex b = some k)
    (ho : s.slot? k = some old) (v : Slot) : ((s.setSlot k v).setActiveId b).activeSlot? = some (k, v) := by
  rw [State.activeSlot?_eq_some]
  exact ⟨hk, State.setSlot_slot?_same s v ho⟩

theorem State.position_clear {s : State} (h : s.fstate = .clear) : s.position = .clear := by
  simp [State.position, h]

theorem State.position_seekId {s : State} (h : s.fstate = .seekId) : s.position = .seekId := by
  simp [State.position, h]

/-- The contents read from a slot that is there are its own. -/
theorem State.active_eq {s : State} {k : Nat} {S : Slot} (hS : s.activeSlot? = some (k, S)) : s.active = S := by
  simp [State.active, hS]

/-- The contents read from a slot that is not there are free (log 9). -/
theorem State.active_absent {s : State} (hS : s.activeSlot? = none) : s.active = s.absentSlot := by
  simp [State.active, hS]

theorem State.drawIfAbsent_eq {s : State} {k : Nat} {S : Slot} (hS : s.activeSlot? = some (k, S)) :
    s.drawIfAbsent = s := by
  simp [State.drawIfAbsent, hS]

theorem State.drawIfAbsent_absent {s : State} (hS : s.activeSlot? = none) :
    s.drawIfAbsent = { s with draws := s.draws + 1 } := by
  simp [State.drawIfAbsent, hS]

theorem State.putActive_eq {s : State} {k : Nat} {S : Slot} (hS : s.activeSlot? = some (k, S)) (v : Slot) :
    s.putActive v = s.setSlot k v := by
  simp [State.putActive, hS]

theorem State.putActive_absent {s : State} (hS : s.activeSlot? = none) (v : Slot) :
    s.putActive v = { s with draws := s.draws + 1 } := by
  simp [State.putActive, State.drawIfAbsent, hS]

theorem State.openSlot_eq {s : State} {b : Byte} {k : Nat} {old : Slot} (hk : slotIndex b = some k)
    (ho : s.slot? k = some old) :
    s.openSlot b = s.setSlot k { header := Config.header, id := b, payload := old.payload, fill := 0 } := by
  simp [State.openSlot, hk, ho]

theorem State.position_filling {s : State} (h : s.fstate = .filling) :
    s.position = .filling s.active.fill s.active.id := by
  simp [State.position, h]

/-- Where the framer can stand, read back from the position. -/
theorem State.position_cases (s : State) :
    (s.fstate = .clear ∧ s.position = .clear) ∨ (s.fstate = .seekId ∧ s.position = .seekId) ∨
    (s.fstate = .filling ∧ s.position = .filling s.active.fill s.active.id) := by
  cases hf : s.fstate with
  | clear => exact .inl ⟨rfl, State.position_clear hf⟩
  | seekId => exact .inr (.inl ⟨rfl, State.position_seekId hf⟩)
  | filling => exact .inr (.inr ⟨rfl, State.position_filling hf⟩)

/-- The guard of the FILLING rows lets the row run on the contents of the active slot. -/
theorem State.withActiveSlot_eq {s : State} (h : s.fstate = .filling)
    (f : Slot → Host.Outcome State Fault Refusal) : s.withActiveSlot f = f s.active := by
  simp [State.withActiveSlot, h]

/-- All the guard of the FILLING rows can do when a row answers a next state. -/
theorem State.withActiveSlot_next {s t : State} {f : Slot → Host.Outcome State Fault Refusal}
    (h : s.withActiveSlot f = .next t) : s.fstate = .filling ∧ f s.active = .next t := by
  unfold State.withActiveSlot at h
  split at h
  · next hf => exact ⟨hf, h⟩
  · cases h

end Sys2Proof.Machine
end

