-- ==== Sys2Proof/Laws/Exec.lean ====
section
/-! SUPPORT. For each meaning, all it can do when it answers a next state: the condition that held and the state it
gives. A proof cites these instead of unfolding a meaning. -/

namespace Sys2Proof.Machine

variable {s t : State}

theorem execT1Header_next (h : execT1Header s = .next t) :
    s.fstate = .clear ∧ t = s.quiet.setFState .seekId := by
  unfold execT1Header at h
  split at h
  · next hc => cases h; exact ⟨hc, rfl⟩
  · cases h

theorem execT2Noise_next {b : Byte} (h : execT2Noise b s = .next t) :
    s.fstate = .clear ∧ b ≠ Config.header ∧ t = s.quiet := by
  unfold execT2Noise at h
  split at h
  · next hc => cases h; exact ⟨hc.1, hc.2, rfl⟩
  · cases h

theorem execT3Id_next {b : Byte} (h : execT3Id b s = .next t) :
    s.fstate = .seekId ∧ isRegistered s.registered b = true ∧
      t = ((s.quiet.openSlot b).setActiveId b).setFState .filling := by
  unfold execT3Id at h
  split at h
  · next hc => cases h; exact ⟨hc.1, hc.2, rfl⟩
  · cases h

theorem execT4Reject_next {b : Byte} (h : execT4Reject b s = .next t) :
    s.fstate = .seekId ∧ isRegistered s.registered b = false ∧ t = s.quiet.setFState .clear := by
  unfold execT4Reject at h
  split at h
  · next hc => cases h; exact ⟨hc.1, hc.2, rfl⟩
  · cases h

theorem execT5Payload_next {b : Byte} (h : execT5Payload b s = .next t) :
    s.fstate = .filling ∧ ∃ hn : s.active.fill.val < 8,
      t = s.quiet.putActive
        { s.active with payload := s.active.payload.set s.active.fill.val b, fill := ⟨s.active.fill.val + 1, by omega⟩ } := by
  obtain ⟨hf, h⟩ := State.withActiveSlot_next h
  split at h
  · next hn => cases h; exact ⟨hf, hn, rfl⟩
  · cases h

theorem execT6ChecksumState_next {b : Byte} (h : execT6ChecksumState b s = .next t) :
    s.fstate = .filling ∧ s.active.fill = 8 ∧ t = s.drawIfAbsent.setFState .clear := by
  obtain ⟨hf, h⟩ := State.withActiveSlot_next h
  split at h
  · next hn => cases h; exact ⟨hf, hn, rfl⟩
  · cases h

theorem execT6ChecksumEmit_next {b : Byte} (h : execT6ChecksumEmit b s = .next t) :
    s.fstate = .filling ∧ s.active.fill = 8 ∧
      t = s.setOut { s.out with
        packet := some { header := s.active.header, id := s.active.id, payload := packPayload s.active.payload,
                         checksum := b }
        pktOk := some (compareOk s.active.checksum b) } := by
  obtain ⟨hf, h⟩ := State.withActiveSlot_next h
  split at h
  · next hn => cases h; exact ⟨hf, hn, rfl⟩
  · cases h

theorem execReset_next (h : execReset s = .next t) : t = (s.quiet.setFState .clear).setValidate false := by
  cases h; rfl

theorem execIdle_next (h : execIdle s = .next t) : t = s.quiet := by
  cases h; rfl

theorem execValidateWrite_next {v : Bool} (h : execValidateWrite v s = .next t) : t = s.setValidate v := by
  cases h; rfl

theorem execChecksum_next (h : execChecksum s = .next t) :
    s.fstate = .filling ∧ t = s.setOut { s.out with computed := some s.active.checksum } := by
  obtain ⟨hf, h⟩ := State.withActiveSlot_next h
  cases h
  exact ⟨hf, rfl⟩

theorem execChecksumCompare_next {b : Byte} (h : execChecksumCompare b s = .next t) :
    ∃ c, s.out.computed = some c ∧ t = s.setOut { s.out with pktOk := some (compareOk c b) } := by
  unfold execChecksumCompare at h
  split at h
  · next c hc => cases h; exact ⟨c, hc, rfl⟩
  · cases h

/-- A row that only drives output ports: DELIVER, the views and the packet-id rows change `out` and nothing else. -/
theorem execDeliver_next (h : execDeliver s = .next t) : t = s.setOut t.out := by
  unfold execDeliver at h
  split at h <;> cases h <;> rfl

theorem execViewU8_next (h : execViewU8 s = .next t) : t = s.setOut t.out := by
  unfold execViewU8 at h
  split at h <;> cases h <;> rfl

theorem execViewI8_next (h : execViewI8 s = .next t) : t = s.setOut t.out := by
  unfold execViewI8 at h
  split at h <;> cases h <;> rfl

theorem execViewI16_next (h : execViewI16 s = .next t) : t = s.setOut t.out := by
  unfold execViewI16 at h
  split at h <;> cases h <;> rfl

theorem execViewI32_next (h : execViewI32 s = .next t) : t = s.setOut t.out := by
  unfold execViewI32 at h
  split at h <;> cases h <;> rfl

/-- All a packet-id row can do: the event is of its kind, and the lanes are what its assignment gives. -/
theorem State.readAs_next {k : PacketId} {f : PayloadBits → Lanes} (h : s.readAs k f = .next t) :
    ∃ p, s.out.packet = some p ∧ p.id = idCode k ∧ t = s.setOut { s.out with lanes := some (f p.payload) } := by
  unfold State.readAs at h
  split at h
  · cases h
  · next p hp =>
    split at h
    · next hid => cases h; exact ⟨p, hp, hid, rfl⟩
    · cases h

end Sys2Proof.Machine
end

