-- ==== Sys2Proof/Laws/Step.lean ====
section
/-! SUPPORT. Running rows one after another, the step as decode and run, driving a list of records, and a run of the
host's machine. -/

namespace Sys2Proof.Machine

@[simp] theorem runRows_nil (s : State) : runRows [] s = .next s := rfl

theorem runRows_cons_next {i : Instr} {rest : List Instr} {s t : State} (h : exec i s = .next t) :
    runRows (i :: rest) s = runRows rest t := by
  simp [runRows, h]

theorem runRows_singleton (i : Instr) (s : State) : runRows [i] s = exec i s := by
  unfold runRows
  cases exec i s <;> rfl

/-- Rows in two groups run one group after the other. -/
theorem runRows_append_next {is js : List Instr} {s t : State} (h : runRows is s = .next t) :
    runRows (is ++ js) s = runRows js t := by
  induction is generalizing s with
  | nil => cases h; rfl
  | cons i rest ih =>
    unfold runRows at h
    cases hi : exec i s with
    | next u => simp only [hi] at h; rw [List.cons_append, runRows_cons_next hi, ih h]
    | fault r => simp [hi] at h
    | refused r => simp [hi] at h

/-- A step is the run of the rows its record selects. -/
theorem step_eq_runRows (s : State) : step s = runRows (decode s.registered s.position s.nextInput) s.beginStep := rfl

@[simp] theorem State.setInputs_nextInput (s : State) (r : InputRecord) (rs : List InputRecord) :
    (s.setInputs (r :: rs)).nextInput = r := rfl

@[simp] theorem State.setInputs_beginStep (s : State) (r : InputRecord) :
    (s.setInputs (r :: s.inputs)).beginStep = s.quiet := rfl

/-- `stepOn` runs the rows the record selects on the state with quiet outputs; the scheduled records are kept. -/
theorem stepOn_eq_runRows (s : State) (r : InputRecord) :
    stepOn r s = runRows (decode s.registered s.position r) s.quiet := rfl

/-- A run of the host's machine: a step that answers a next state, and the run after it. -/
theorem run_succ_next {M : Host.Core} (n : Nat) {a b : M.State} (h : M.step a = .next b) :
    M.run (n + 1) a = M.run n b := by
  unfold Host.Core.run
  rw [h]
  cases n <;> rfl

@[simp] theorem drive_nil (s : State) : drive [] s = some (s, []) := rfl

theorem drive_cons_next {r : InputRecord} {rs : List InputRecord} {s t : State} (h : stepOn r s = .next t) :
    drive (r :: rs) s = (drive rs t).map fun (u, os) => (u, t.out :: os) := by
  simp [drive, h]

/-- Driving a record and then others: the first step and the run after it. -/
theorem drive_cons_eq_some {r : InputRecord} {rs : List InputRecord} {s u : State} {os : List Outputs}
    (h : drive (r :: rs) s = some (u, os)) :
    ∃ t qs, stepOn r s = .next t ∧ drive rs t = some (u, qs) ∧ os = t.out :: qs := by
  unfold drive at h
  cases hr : stepOn r s with
  | next t =>
    simp only [hr] at h
    cases hd : drive rs t with
    | none => simp [hd] at h
    | some p =>
      simp only [hd, Option.map_some, Option.some.injEq, Prod.mk.injEq] at h
      exact ⟨t, p.2, rfl, by rw [hd, ← h.1], h.2.symm⟩
  | fault e => simp [hr] at h
  | refused e => simp [hr] at h

@[simp] theorem eventsOf_nil : eventsOf [] = [] := rfl

theorem eventsOf_append (os qs : List Outputs) : eventsOf (os ++ qs) = eventsOf os ++ eventsOf qs :=
  List.filterMap_append

@[simp] theorem Outputs.quiet_event? : Outputs.quiet.event? = none := rfl

end Sys2Proof.Machine
end

