-- ==== Sys2Proof/Laws/Event.lean ====
section
/-! SUPPORT. One equation per kind of step: what `stepOn` answers for each input record at each place of the framer,
with the outputs of a checksum byte written out. -/

namespace Sys2Proof.Machine

/-- The VALIDATE write of a record, if it asks for one. -/
def State.cfgWritten (s : State) (r : InputRecord) : State :=
  s.setValidate (if r.cfgWe then r.cfgValidate else s.validate)

/-- The lanes of an event with packet id `id` and payload port `p`. -/
def eventLanes (id : Byte) (p : PayloadBits) : Option Lanes :=
  (packetKind id).map fun k =>
    match k with
    | .rtc | .dataPortStatus | .altimeter | .gpsAccuracy => .unassigned
    | .gpsGroundSpeed => .unsupported
    | .acceleration | .angularVelocity => axesLanes p
    | .angles => .angles (cell16 p 0) (cell16 p 1) (cell16 p 2) (cell16 p 3)
    | .magnetometer => .fields (cell16 p 0) (cell16 p 1) (cell16 p 2) (cell16 p 3)
    | .gpsCoordinates => .coordinates (cell32 p 0) (cell32 p 1)
    | .orientation => .quaternion (cell16 p 0) (cell16 p 1) (cell16 p 2) (cell16 p 3)

/-- Every output of the step that takes `b` as the checksum byte of slot `S`. -/
def eventOutputs (S : Slot) (b : Byte) (validate : Bool) : Outputs :=
  let p := packPayload S.payload
  let ok := compareOk S.checksum b
  { packet := some { header := S.header, id := S.id, payload := p, checksum := b }
    pktOk := some ok
    pktDeliver := some (deliverOf validate ok)
    decU8 := some (viewU8Of p)
    decI8 := some (viewI8Of p)
    decI16 := some (viewI16Of p)
    decI32 := some (viewI32Of p)
    computed := some S.checksum
    lanes := eventLanes S.id p }

theorem packetKind_eq_some {b : Byte} {k : PacketId} (h : packetKind b = some k) : b = idCode k := by
  unfold packetKind at h
  repeat' split at h
  all_goals first | cases h; assumption | cases h

/-! ### Runs of rows -/

theorem runRows_cfgRows (s : State) (r : InputRecord) : runRows (Decode.cfgRows r) s = .next (s.cfgWritten r) := by
  unfold Decode.cfgRows State.cfgWritten
  split <;> rfl

/-- The packet-id row of an event, if there is one, drives the event's lanes. -/
theorem runRows_idRows {s : State} {p : RawPacket} (hp : s.out.packet = some p) (hl : s.out.lanes = none) :
    runRows (Decode.idRows p.id) s = .next (s.setOut { s.out with lanes := eventLanes p.id p.payload }) := by
  unfold Decode.idRows eventLanes
  cases hk : packetKind p.id with
  | none => simp [State.setOut, ← hl]
  | some k =>
    have hid := packetKind_eq_some hk
    rw [runRows_singleton]
    cases k <;> exact (by simp only [exec, Decode.idRow, execIdRtc, execIdAcceleration, execIdAngularVelocity,
      execIdAngles, execIdMagnetometer, execIdDataPortStatus, execIdAltimeter, execIdGpsCoordinates,
      execIdGpsGroundSpeed, execIdOrientation, execIdGpsAccuracy, State.readAs, hp, hid, if_true, Option.map_some])

section ChecksumByte

theorem execChecksumCompare_setOut {s : State} {o : Outputs} {b c : Byte} (h : o.computed = some c) :
    exec (.checksumCompare b) (s.setOut o) = .next (s.setOut { o with pktOk := some (compareOk c b) }) := by
  cases o
  cases h
  rfl

/-- The rows that drive an event's own output ports. -/
def outputRows : List Instr := [.deliver, .viewU8, .viewI8, .viewI16, .viewI32]

/-- They drive `pkt_deliver` and the four views of the event's payload. -/
theorem runRows_outputRows (s : State) (p : RawPacket) (ok : Bool) (c : Option Byte) :
    runRows outputRows (s.setOut { Outputs.quiet with packet := some p, pktOk := some ok, computed := c }) =
    .next (s.setOut
      { packet := some p
        pktOk := some ok
        pktDeliver := some (deliverOf s.validate ok)
        decU8 := some (viewU8Of p.payload)
        decI8 := some (viewI8Of p.payload)
        decI16 := some (viewI16Of p.payload)
        decI32 := some (viewI32Of p.payload)
        computed := c
        lanes := none }) := by
  simp only [outputRows, runRows, exec, execDeliver, execViewU8, execViewI8, execViewI16, execViewI32,
    State.setOut_out, State.setOut_setOut, State.setOut_validate, Outputs.quiet_lanes]

variable {s : State} (b : Byte)

/-- The rows of a checksum byte, run on a state whose outputs are quiet, give the event. -/
theorem runRows_checksumRows (hf : s.fstate = .filling) (h8 : s.active.fill = 8) :
    runRows (Decode.checksumRows s.active.id b) s.quiet =
      .next ((s.drawIfAbsent.setFState .clear).setOut (eventOutputs s.active b s.validate)) := by
  have guard (o : Outputs) (f : Slot → Host.Outcome State Fault Refusal) :
      (s.setOut o).withActiveSlot f = f s.active := State.withActiveSlot_eq (s := s.setOut o) hf f
  have hd (o : Outputs) : (s.setOut o).drawIfAbsent = s.drawIfAbsent.setOut o := by
    cases hS : s.activeSlot? with
    | some kS => rw [State.drawIfAbsent_eq (s := s) hS, State.drawIfAbsent_eq (s := s.setOut o) hS]
    | none => rw [State.drawIfAbsent_absent hS, State.drawIfAbsent_absent (s := s.setOut o) hS]; rfl
  have h1 : exec .checksum s.quiet = .next (s.setOut { Outputs.quiet with computed := some s.active.checksum }) := by
    show execChecksum (s.setOut Outputs.quiet) = _
    rw [execChecksum, guard]; rfl
  have h3 (o : Outputs) : exec (.t6ChecksumEmit b) (s.setOut o) = .next (s.setOut { o with
      packet := some { header := s.active.header, id := s.active.id, payload := packPayload s.active.payload,
                       checksum := b }
      pktOk := some (compareOk s.active.checksum b) }) := by
    show execT6ChecksumEmit _ _ = _
    rw [execT6ChecksumEmit, guard, if_pos h8]; rfl
  have h9 (o : Outputs) : exec (.t6ChecksumState b) (s.setOut o) =
      .next ((s.drawIfAbsent.setFState .clear).setOut o) := by
    show execT6ChecksumState b _ = _
    rw [execT6ChecksumState, guard, if_pos h8, hd]; rfl
  generalize s.active = S at h1 h3 ⊢
  generalize s.drawIfAbsent = d at h9 ⊢
  show runRows (.checksum :: .checksumCompare b :: .t6ChecksumEmit b :: (outputRows ++
    .t6ChecksumState b :: Decode.idRows S.id)) s.quiet = _
  rw [runRows_cons_next h1, runRows_cons_next (execChecksumCompare_setOut rfl), runRows_cons_next (h3 _),
    runRows_append_next (runRows_outputRows s _ _ _), runRows_cons_next (h9 _)]
  exact runRows_idRows (p := { header := S.header, id := S.id, payload := packPayload S.payload, checksum := b }) rfl rfl

end ChecksumByte

/-! ### Steps -/

variable {s : State} {r : InputRecord}

theorem stepOn_reset (hr : r.rst = true) : stepOn r s = .next ((s.quiet.setFState .clear).setValidate false) := by
  rw [stepOn_eq_runRows, decode, if_pos hr]; rfl

theorem stepOn_idle (hr : r.rst = false) (hv : r.inValid = false) : stepOn r s = .next (s.quiet.cfgWritten r) := by
  rw [stepOn_eq_runRows, decode, if_neg (by simp [hr]), if_neg (by simp [hv]), runRows_cons_next rfl]
  exact runRows_cfgRows s.quiet r

/-- A byte step runs the rows of its byte and then the VALIDATE write. -/
theorem stepOn_byte {rows : List Instr} {t : State} (hr : r.rst = false) (hv : r.inValid = true)
    (hd : Decode.byteRows s.registered s.position r.inByte = rows) (ht : runRows rows s.quiet = .next t) :
    stepOn r s = .next (t.cfgWritten r) := by
  rw [stepOn_eq_runRows, decode, if_neg (by simp [hr]), if_pos hv, hd, runRows_append_next ht, runRows_cfgRows]

theorem stepOn_header (hr : r.rst = false) (hv : r.inValid = true) (hf : s.fstate = .clear)
    (hb : r.inByte = Config.header) : stepOn r s = .next ((s.quiet.setFState .seekId).cfgWritten r) := by
  apply stepOn_byte hr hv (rows := [.t1Header])
  · rw [State.position_clear hf, Decode.byteRows, if_pos hb]
  · rw [runRows_singleton]
    exact if_pos hf

theorem stepOn_noise (hr : r.rst = false) (hv : r.inValid = true) (hf : s.fstate = .clear)
    (hb : r.inByte ≠ Config.header) : stepOn r s = .next (s.quiet.cfgWritten r) := by
  apply stepOn_byte hr hv (rows := [.t2Noise r.inByte])
  · rw [State.position_clear hf, Decode.byteRows, if_neg hb]
  · rw [runRows_singleton]
    exact if_pos ⟨hf, hb⟩

theorem stepOn_id {k : Nat} {old : Slot} (hr : r.rst = false) (hv : r.inValid = true) (hf : s.fstate = .seekId)
    (hb : isRegistered s.registered r.inByte = true) (hk : slotIndex r.inByte = some k)
    (ho : s.slot? k = some old) :
    stepOn r s = .next ((((s.quiet.setSlot k
      { header := Config.header, id := r.inByte, payload := old.payload, fill := 0 }).setActiveId
        r.inByte).setFState .filling).cfgWritten r) := by
  apply stepOn_byte hr hv (rows := [.t3Id r.inByte])
  · rw [State.position_seekId hf, Decode.byteRows, if_pos hb]
  · rw [runRows_singleton, ← State.openSlot_eq (s := s.quiet) hk ho]
    exact if_pos ⟨hf, hb⟩

theorem stepOn_reject (hr : r.rst = false) (hv : r.inValid = true) (hf : s.fstate = .seekId)
    (hb : isRegistered s.registered r.inByte = false) :
    stepOn r s = .next ((s.quiet.setFState .clear).cfgWritten r) := by
  apply stepOn_byte hr hv (rows := [.t4Reject r.inByte])
  · rw [State.position_seekId hf, Decode.byteRows, if_neg (by simp [hb])]
  · rw [runRows_singleton]
    exact if_pos ⟨hf, hb⟩

/-- A payload byte, whether or not ACTIVE_ID selects a slot. -/
theorem stepOn_payload_active (hr : r.rst = false) (hv : r.inValid = true) (hf : s.fstate = .filling)
    (hn : s.active.fill.val < 8) :
    stepOn r s = .next ((s.quiet.putActive
      { s.active with payload := s.active.payload.set s.active.fill.val r.inByte
                      fill := ⟨s.active.fill.val + 1, by omega⟩ }).cfgWritten r) := by
  apply stepOn_byte hr hv (rows := [.t5Payload r.inByte])
  · rw [State.position_filling hf, Decode.byteRows, if_pos hn]
  · rw [runRows_singleton]
    show execT5Payload _ _ = _
    rw [execT5Payload, State.withActiveSlot_eq (s := s.quiet) hf, State.quiet_active, dif_pos hn, State.quiet_quiet]

theorem stepOn_payload {k : Nat} {S : Slot} (hr : r.rst = false) (hv : r.inValid = true) (hf : s.fstate = .filling)
    (hS : s.activeSlot? = some (k, S)) (hn : S.fill.val < 8) :
    stepOn r s = .next ((s.quiet.setSlot k
      { S with payload := S.payload.set S.fill.val r.inByte, fill := ⟨S.fill.val + 1, by omega⟩ }).cfgWritten r) := by
  have ha := State.active_eq hS
  subst ha
  rw [stepOn_payload_active hr hv hf hn, State.putActive_eq (s := s.quiet) hS]

/-- A checksum byte, whether or not ACTIVE_ID selects a slot. -/
theorem stepOn_checksum_active (hr : r.rst = false) (hv : r.inValid = true) (hf : s.fstate = .filling)
    (h8 : s.active.fill = 8) :
    stepOn r s =
      .next (((s.drawIfAbsent.setFState .clear).setOut (eventOutputs s.active r.inByte s.validate)).cfgWritten r) := by
  apply stepOn_byte hr hv (rows := Decode.checksumRows s.active.id r.inByte)
  · rw [State.position_filling hf, Decode.byteRows, if_neg (by rw [h8]; decide)]
  · exact runRows_checksumRows r.inByte hf h8

theorem stepOn_checksum {k : Nat} {S : Slot} (hr : r.rst = false) (hv : r.inValid = true) (hf : s.fstate = .filling)
    (hS : s.activeSlot? = some (k, S)) (h8 : S.fill = 8) :
    stepOn r s =
      .next (((s.setFState .clear).setOut (eventOutputs S r.inByte s.validate)).cfgWritten r) := by
  have ha := State.active_eq hS
  subst ha
  rw [stepOn_checksum_active hr hv hf h8, State.drawIfAbsent_eq hS]

@[simp] theorem State.cfgWritten_fstate (t : State) (r : InputRecord) : (t.cfgWritten r).fstate = t.fstate := rfl
@[simp] theorem State.cfgWritten_activeId (t : State) (r : InputRecord) : (t.cfgWritten r).activeId = t.activeId := rfl
@[simp] theorem State.cfgWritten_activeSlot? (t : State) (r : InputRecord) : (t.cfgWritten r).activeSlot? = t.activeSlot? := rfl
@[simp] theorem State.cfgWritten_active (t : State) (r : InputRecord) : (t.cfgWritten r).active = t.active := rfl
@[simp] theorem State.cfgWritten_draws (t : State) (r : InputRecord) : (t.cfgWritten r).draws = t.draws := rfl
@[simp] theorem State.cfgWritten_registered (t : State) (r : InputRecord) : (t.cfgWritten r).registered = t.registered := rfl
@[simp] theorem State.cfgWritten_out (t : State) (r : InputRecord) : (t.cfgWritten r).out = t.out := rfl
@[simp] theorem State.cfgWritten_inputs (t : State) (r : InputRecord) : (t.cfgWritten r).inputs = t.inputs := rfl
@[simp] theorem State.cfgWritten_slot? (t : State) (r : InputRecord) (k : Nat) : (t.cfgWritten r).slot? k = t.slot? k := rfl
@[simp] theorem State.cfgWritten_slotCount (t : State) (r : InputRecord) : (t.cfgWritten r).slotCount = t.slotCount := rfl
@[simp] theorem State.cfgWritten_validate (t : State) (r : InputRecord) : (t.cfgWritten r).validate = if r.cfgWe then r.cfgValidate else t.validate := rfl
@[simp] theorem State.cfgWritten_position (t : State) (r : InputRecord) : (t.cfgWritten r).position = t.position := rfl


/-! ### What a step can do -/

theorem Slot.fill_eq_eight {S : Slot} (h : ¬ S.fill.val < 8) : S.fill = 8 := by
  have := S.fill.isLt
  exact Fin.ext (show S.fill.val = 8 by omega)

/-- All that a step with record `r` can do when it answers a next state: one of the ten kinds of step, with the
condition that held and the state it gives. -/
theorem stepOn_cases {s t : State} {r : InputRecord} (h : stepOn r s = .next t) :
  (r.rst = true ∧ t = (s.quiet.setFState .clear).setValidate false) ∨
  (r.rst = false ∧ r.inValid = false ∧ t = s.quiet.cfgWritten r) ∨
  (r.rst = false ∧ r.inValid = true ∧ (
    (s.fstate = .clear ∧ r.inByte = Config.header ∧ t = (s.quiet.setFState .seekId).cfgWritten r) ∨
    (s.fstate = .clear ∧ r.inByte ≠ Config.header ∧ t = s.quiet.cfgWritten r) ∨
    (∃ k old, s.fstate = .seekId ∧ isRegistered s.registered r.inByte = true ∧ slotIndex r.inByte = some k ∧ k < 11 ∧ s.slot? k = some old ∧
      t = (((s.quiet.setSlot k { header := Config.header, id := r.inByte, payload := old.payload, fill := 0 }).setActiveId r.inByte).setFState .filling).cfgWritten r) ∨
    (s.fstate = .seekId ∧ isRegistered s.registered r.inByte = false ∧ t = (s.quiet.setFState .clear).cfgWritten r) ∨
    (∃ k S, s.fstate = .filling ∧ s.activeSlot? = some (k, S) ∧ ∃ hn : S.fill.val < 8, t = (s.quiet.setSlot k { S with payload := S.payload.set S.fill.val r.inByte, fill := ⟨S.fill.val + 1, by omega⟩ }).cfgWritten r) ∨
    (∃ k S, s.fstate = .filling ∧ s.activeSlot? = some (k, S) ∧ S.fill = 8 ∧ t = ((s.setFState .clear).setOut (eventOutputs S r.inByte s.validate)).cfgWritten r) ∨
    (s.fstate = .filling ∧ s.activeSlot? = none ∧ s.absentSlot.fill.val < 8 ∧
      t = ({ s.quiet with draws := s.draws + 1 } : State).cfgWritten r) ∨
    (s.fstate = .filling ∧ s.activeSlot? = none ∧ s.absentSlot.fill = 8 ∧
      t = ((({ s with draws := s.draws + 1 } : State).setFState .clear).setOut
        (eventOutputs s.absentSlot r.inByte s.validate)).cfgWritten r))) := by
  by_cases hr : r.rst = true
  · rw [stepOn_reset hr] at h; cases h; exact .inl ⟨hr, rfl⟩
  have hr : r.rst = false := by simpa using hr
  by_cases hv : r.inValid = true
  swap
  · rw [stepOn_idle hr (by simpa using hv)] at h; cases h; exact .inr (.inl ⟨hr, by simpa using hv, rfl⟩)
  refine .inr (.inr ⟨hr, hv, ?_⟩)
  cases hf : s.fstate with
  | clear =>
    by_cases hb : r.inByte = Config.header
    · rw [stepOn_header hr hv hf hb] at h; cases h; simp [hb]
    · rw [stepOn_noise hr hv hf hb] at h; cases h; exact .inr (.inl ⟨rfl, hb, rfl⟩)
  | seekId =>
    by_cases hb : isRegistered s.registered r.inByte = true
    · obtain ⟨k, hk, hi⟩ := isRegistered_slotIndex hb
      rw [stepOn_id hr hv hf hb hi (State.slot?_of_lt s hk)] at h; cases h
      exact .inr (.inr (.inl ⟨k, _, rfl, hb, hi, hk, State.slot?_of_lt s hk, rfl⟩))
    · rw [stepOn_reject hr hv hf (by simpa using hb)] at h; cases h
      exact .inr (.inr (.inr (.inl ⟨rfl, by simpa using hb, rfl⟩)))
  | filling =>
    cases hS : s.activeSlot? with
    | none =>
      by_cases hn : s.active.fill.val < 8
      · rw [stepOn_payload_active hr hv hf hn, State.putActive_absent (s := s.quiet) hS] at h; cases h
        exact .inr (.inr (.inr (.inr (.inr (.inr (.inl ⟨rfl, rfl, State.active_absent hS ▸ hn, rfl⟩))))))
      · rw [stepOn_checksum_active hr hv hf (Slot.fill_eq_eight hn), State.drawIfAbsent_absent hS,
          State.active_absent hS] at h
        cases h
        exact .inr (.inr (.inr (.inr (.inr (.inr (.inr
          ⟨rfl, rfl, State.active_absent hS ▸ Slot.fill_eq_eight hn, rfl⟩))))))
    | some kS =>
      obtain ⟨k, S⟩ := kS
      by_cases hn : S.fill.val < 8
      · rw [stepOn_payload hr hv hf hS hn] at h; cases h
        exact .inr (.inr (.inr (.inr (.inl ⟨k, S, rfl, rfl, hn, rfl⟩))))
      · rw [stepOn_checksum hr hv hf hS (Slot.fill_eq_eight hn)] at h; cases h
        exact .inr (.inr (.inr (.inr (.inr (.inl ⟨k, S, rfl, rfl, Slot.fill_eq_eight hn, rfl⟩)))))


/-- A step is `stepOn` of the record it takes, on the state without that record. -/
theorem step_eq_stepOn (s : State) : step s = stepOn s.nextInput (s.setInputs s.inputs.tail) := by
  show oneStep s = oneStep _
  rfl

end Sys2Proof.Machine
end

