-- ==== Sys2Proof/Laws/Operands.lean ====
section
/-! SUPPORT. Field assembly: the bytes and cells of a packed payload, the numbers the little-endian patterns stand for,
and the checksum as a sum of numbers. -/

namespace Sys2Proof.Machine

variable (p : Payload)

/-- An appended byte as a number. -/
theorem append_byte_toNat {n : Nat} (x : BitVec n) (b : Byte) : (x ++ b).toNat = x.toNat * 256 + b.toNat := by
  rw [BitVec.toNat_append, Nat.shiftLeft_eq, ← Nat.mul_comm (2 ^ 8), ← Nat.two_pow_add_eq_or_of_lt b.isLt,
    Nat.mul_comm]

/-- `pkt_payload` as a number: byte `i` weighs 256 to the `i` (10_state.md R30). -/
theorem packPayload_toNat : (packPayload p).toNat =
    p[0].toNat + 256 * p[1].toNat + 256 ^ 2 * p[2].toNat + 256 ^ 3 * p[3].toNat + 256 ^ 4 * p[4].toNat +
      256 ^ 5 * p[5].toNat + 256 ^ 6 * p[6].toNat + 256 ^ 7 * p[7].toNat := by
  simp only [packPayload, append_byte_toNat]
  omega

/-- `LE16(p, o)` as a number (00_scope.md R12). -/
theorem le16_toNat (o : Nat) (h : o + 1 < 8) : (le16 p o h).toNat = p[o].toNat + 256 * p[o + 1].toNat := by
  simp only [le16, append_byte_toNat]
  omega

/-- `LE32(p, o)` as a number (00_scope.md R12). -/
theorem le32_toNat (o : Nat) (h : o + 3 < 8) : (le32 p o h).toNat =
    p[o].toNat + 256 * p[o + 1].toNat + 65536 * p[o + 2].toNat + 16777216 * p[o + 3].toNat := by
  simp only [le32, append_byte_toNat]
  omega

/-- Byte `i` of the packed payload is payload byte `i`. -/
theorem payloadByte_packPayload (i : Nat) (h : i < 8) : payloadByte (packPayload p) i = p[i] := by
  apply BitVec.eq_of_toNat_eq
  rw [payloadByte, BitVec.extractLsb'_toNat, packPayload_toNat, Nat.shiftRight_eq_div_pow]
  match i, h with
  | 0, _ | 1, _ | 2, _ | 3, _ | 4, _ | 5, _ | 6, _ | 7, _ => omega

/-- int16 cell `i` of the packed payload is bytes `2i+1` and `2i` (20_memory.md R41). -/
theorem cell16_packPayload (i : Nat) (h : i < 4) : cell16 (packPayload p) i = le16 p (2 * i) (by omega) := by
  apply BitVec.eq_of_toNat_eq
  rw [cell16, BitVec.extractLsb'_toNat, packPayload_toNat, Nat.shiftRight_eq_div_pow, le16_toNat]
  match i, h with
  | 0, _ | 1, _ | 2, _ | 3, _ => simp only [Nat.reduceMul, Nat.reduceAdd]; omega

/-- int32 cell `j` of the packed payload is bytes `4j+3` to `4j` (20_memory.md R42). -/
theorem cell32_packPayload (j : Nat) (h : j < 2) : cell32 (packPayload p) j = le32 p (4 * j) (by omega) := by
  apply BitVec.eq_of_toNat_eq
  rw [cell32, BitVec.extractLsb'_toNat, packPayload_toNat, Nat.shiftRight_eq_div_pow, le32_toNat]
  match j, h with
  | 0, _ | 1, _ => simp only [Nat.reduceMul, Nat.reduceAdd]; omega

/-- A payload is its eight bytes. -/
theorem payload_eta : p = #v[p[0], p[1], p[2], p[3], p[4], p[5], p[6], p[7]] := by
  ext i hi
  match i, hi with
  | 0, _ | 1, _ | 2, _ | 3, _ | 4, _ | 5, _ | 6, _ | 7, _ => rfl

theorem viewU8Of_packPayload : viewU8Of (packPayload p) = p := by
  simp only [viewU8Of, payloadByte_packPayload p 0 (by omega), payloadByte_packPayload p 1 (by omega),
    payloadByte_packPayload p 2 (by omega), payloadByte_packPayload p 3 (by omega),
    payloadByte_packPayload p 4 (by omega), payloadByte_packPayload p 5 (by omega),
    payloadByte_packPayload p 6 (by omega), payloadByte_packPayload p 7 (by omega)]
  exact (payload_eta p).symm

theorem viewI8Of_packPayload : viewI8Of (packPayload p) = p := viewU8Of_packPayload p

theorem viewI16Of_packPayload : viewI16Of (packPayload p) =
    #v[le16 p 0 (by omega), le16 p 2 (by omega), le16 p 4 (by omega), le16 p 6 (by omega)] := by
  simp only [viewI16Of, cell16_packPayload p 0 (by omega), cell16_packPayload p 1 (by omega),
    cell16_packPayload p 2 (by omega), cell16_packPayload p 3 (by omega)]

theorem viewI32Of_packPayload : viewI32Of (packPayload p) = #v[le32 p 0 (by omega), le32 p 4 (by omega)] := by
  simp only [viewI32Of, cell32_packPayload p 0 (by omega), cell32_packPayload p 1 (by omega)]

end Sys2Proof.Machine
end

