-- ==== Sys2Proof/Laws/PerInstr.lean ====
section
/-! SUPPORT. Statements about every row of the table, one lemma per constructor. Family `EncodedPlace`: where
the encoder gives a row a place while FILLING, it is that of the first payload byte or of the checksum byte, and its
record asks for a reset exactly when the row is RESET. -/

namespace Sys2Proof.Laws.EncodedPlace

def Statement (i : Instr) : Prop :=
  (∀ n id, (encode i).1 = .filling n id → n = 0 ∨ n = 8) ∧ ((encode i).2.rst = true ↔ i = .reset)

theorem t1Header : Statement .t1Header := by
  simp [Statement, encode, Decode.byteRecord]

theorem t2Noise (b : Byte) : Statement (.t2Noise b) := by
  simp [Statement, encode, Decode.byteRecord]

theorem t3Id (b : Byte) : Statement (.t3Id b) := by
  simp [Statement, encode, Decode.byteRecord]

theorem t4Reject (b : Byte) : Statement (.t4Reject b) := by
  simp [Statement, encode, Decode.byteRecord]

theorem t5Payload (b : Byte) : Statement (.t5Payload b) := by
  simp [Statement, encode, Decode.byteRecord]

theorem t6ChecksumState (b : Byte) : Statement (.t6ChecksumState b) := by
  simp [Statement, encode, Decode.byteRecord]

theorem t6ChecksumEmit (b : Byte) : Statement (.t6ChecksumEmit b) := by
  simp [Statement, encode, Decode.byteRecord]

theorem reset : Statement .reset := by
  simp [Statement, encode, Decode.resetRecord]

theorem idle : Statement .idle := by
  simp [Statement, encode, Decode.idleRecord]

theorem validateWrite (v : Bool) : Statement (.validateWrite v) := by
  simp [Statement, encode, Decode.validateRecord]

theorem checksum : Statement .checksum := by
  simp [Statement, encode, Decode.byteRecord]

theorem checksumCompare (b : Byte) : Statement (.checksumCompare b) := by
  simp [Statement, encode, Decode.byteRecord]

theorem deliver : Statement .deliver := by
  simp [Statement, encode, Decode.byteRecord]

theorem viewU8 : Statement .viewU8 := by
  simp [Statement, encode, Decode.byteRecord]

theorem viewI8 : Statement .viewI8 := by
  simp [Statement, encode, Decode.byteRecord]

theorem viewI16 : Statement .viewI16 := by
  simp [Statement, encode, Decode.byteRecord]

theorem viewI32 : Statement .viewI32 := by
  simp [Statement, encode, Decode.byteRecord]

theorem idRtc : Statement .idRtc := by
  simp [Statement, encode, Decode.byteRecord]

theorem idAcceleration : Statement .idAcceleration := by
  simp [Statement, encode, Decode.byteRecord]

theorem idAngularVelocity : Statement .idAngularVelocity := by
  simp [Statement, encode, Decode.byteRecord]

theorem idAngles : Statement .idAngles := by
  simp [Statement, encode, Decode.byteRecord]

theorem idMagnetometer : Statement .idMagnetometer := by
  simp [Statement, encode, Decode.byteRecord]

theorem idDataPortStatus : Statement .idDataPortStatus := by
  simp [Statement, encode, Decode.byteRecord]

theorem idAltimeter : Statement .idAltimeter := by
  simp [Statement, encode, Decode.byteRecord]

theorem idGpsCoordinates : Statement .idGpsCoordinates := by
  simp [Statement, encode, Decode.byteRecord]

theorem idGpsGroundSpeed : Statement .idGpsGroundSpeed := by
  simp [Statement, encode, Decode.byteRecord]

theorem idOrientation : Statement .idOrientation := by
  simp [Statement, encode, Decode.byteRecord]

theorem idGpsAccuracy : Statement .idGpsAccuracy := by
  simp [Statement, encode, Decode.byteRecord]

end Sys2Proof.Laws.EncodedPlace
end

