-- ==== Sys2Proof/Tests/Slice0.lean ====
section
/-! SUPPORT. Tests of the model and witnesses of the statements' hypotheses. Expected results come from the spec's own
vectors (95_test_vectors.md, named V-… and E…) and from words written out bit by bit from its encodings
(30_encoding.md R63, R64, R69). -/

namespace Sys2Proof.Tests

open Sys2Proof.Machine

/-! ### Helpers -/

/-- The payload of E4, V-F8 and V-C8. -/
def payE4 : Payload := #v[0x00, 0x40, 0, 0, 0, 0, 0, 0]

/-- The payload of E5 and V-D1. -/
def payE5 : Payload := #v[0x00, 0x40, 0x00, 0xC0, 0x00, 0x00, 0xA8, 0x02]

/-- FILLING the slot of id 0x51 (slot 1). -/
def filling51 (p : Payload) (n : Fin 9) : State :=
  { State.reset with
    fstate := .filling
    activeId := 0x51
    slots := State.reset.slots.set 1 { header := 0x55, id := 0x51, payload := p, fill := n } }

/-- SEEKID after reset. -/
def seeking : State := { State.reset with fstate := .seekId }

/-- REGISTERED_IDS = 0x50..0x5A without 0x55. -/
def without55 : Registered := Config.defaultRegistered.set 5 false

/-- SEEKID with 0x55 not registered. -/
def seeking55 : State := { seeking with registered := without55 }

/-- FILLING with an ACTIVE_ID below the id base: no run reaches it. -/
def lost : State := { State.reset with fstate := .filling, activeId := 0x10 }

/-- A state whose step has an event on its ports. -/
def withEvent (id : Byte) (p : Payload) (ok : Bool) : State :=
  { State.reset with out := { Outputs.quiet with
    packet := some { header := 0x55, id := id, payload := packPayload p, checksum := 0xE6 }
    pktOk := some ok } }

/-- The next state of an outcome, if it is one. -/
def nextOf : Host.Outcome State Fault Refusal → Option State
  | .next t => some t
  | .fault _ => none
  | .refused _ => none

/-- A fact about the next state of an outcome. -/
def after (o : Host.Outcome State Fault Refusal) (f : State → Bool) : Bool :=
  match o with
  | .next t => f t
  | .fault _ => false
  | .refused _ => false

def isNext (o : Host.Outcome State Fault Refusal) : Bool := after o fun _ => true

/-! ### WellFormed -/

theorem test_wf_refuses_noise_0x55 : (Instr.t2Noise 0x55).wf Config.defaultRegistered = false := by decide

theorem test_wf_refuses_unregistered_id : (Instr.t3Id 0x5B).wf Config.defaultRegistered = false := by decide

theorem test_wf_refuses_rejecting_a_registered_id :
    (Instr.t4Reject 0x51).wf Config.defaultRegistered = false := by decide

theorem test_wf_accepts_rejected_0x55 : (Instr.t4Reject 0x55).wf without55 = true := by decide

/-! ### Decoding: each row by a word written out from its encoding -/

theorem test_decode_t1 : decode without55 .clear ⟨false, true, 0b01010101, false, false⟩ = [.t1Header] := by
  decide

theorem test_decode_t2 :
    decode without55 .clear ⟨false, true, 0b01010100, false, false⟩ = [.t2Noise 0x54] := by decide

theorem test_decode_t3 :
    decode without55 .seekId ⟨false, true, 0b01011010, false, false⟩ = [.t3Id 0x5A] := by decide

theorem test_decode_t4 :
    decode without55 .seekId ⟨false, true, 0b01010101, false, false⟩ = [.t4Reject 0x55] := by decide

theorem test_decode_t5 :
    decode without55 (.filling 7 0x51) ⟨false, true, 0b01010101, false, false⟩ = [.t5Payload 0x55] := by decide

/-- A checksum byte runs both T6 rows, CHECKSUM, CHECKSUM_COMPARE, DELIVER, the four views and the row of pkt_id. -/
theorem test_decode_t6 :
    decode without55 (.filling 8 0x53) ⟨false, true, 0b11100110, false, false⟩ =
      [.checksum, .checksumCompare 0xE6, .t6ChecksumEmit 0xE6, .deliver, .viewU8, .viewI8, .viewI16, .viewI32,
        .t6ChecksumState 0xE6, .idAngles] := by decide

theorem test_decode_reset : decode without55 .seekId ⟨true, true, 0x55, true, true⟩ = [.reset] := by decide

theorem test_decode_idle : decode without55 .seekId ⟨false, false, 0x55, false, true⟩ = [.idle] := by decide

theorem test_decode_validate_write :
    decode without55 .clear ⟨false, true, 0x55, true, true⟩ = [.t1Header, .validateWrite true] := by decide

/-- The table's words of the packet ids 0x50 to 0x5A, and of T1_HEADER where a packet id is the same byte (log 14). -/
theorem test_decode_table_words :
    [0b01010000, 0b01010001, 0b01010010, 0b01010011, 0b01010100, 0b01010110, 0b01010111, 0b01011000, 0b01011001,
      0b01011010, 0b01010101].map (decodeTableWord 8) =
    [Instr.idRtc, .idAcceleration, .idAngularVelocity, .idAngles, .idMagnetometer, .idAltimeter, .idGpsCoordinates,
      .idGpsGroundSpeed, .idOrientation, .idGpsAccuracy, .t1Header].map some := by decide

/-- The event of a frame of id 0x55 is read by the row ID_DataPortStatus. -/
theorem test_decode_dataPortStatus :
    (decode without55 (.filling 8 0b01010101) ⟨false, true, 0, false, false⟩).getLast? =
      some .idDataPortStatus := by decide

theorem test_decode_no_byte :
    (match decodeBytes without55 .clear [] with | .error .noByte => true | _ => false) = true := by decide

/-! ### Framer rows -/

/-- V-F1 -/
theorem test_vf1 : nextOf (exec .t1Header State.reset) = some seeking := by decide

/-- V-F2 -/
theorem test_vf2 : nextOf (exec (.t2Noise 0x51) State.reset) = some State.reset := by decide

/-- V-F3 -/
theorem test_vf3 : nextOf (exec (.t3Id 0x51) seeking) = some (filling51 (Vector.replicate 8 0) 0) := by decide

/-- V-F4: 0x55 as a registered id opens slot 5. -/
theorem test_vf4 :
    after (exec (.t3Id 0x55) seeking) (fun t => t.activeId == 0x55 && t.slots[5].header == 0x55 &&
      t.slots[5].id == 0x55 && t.slots[1] == State.reset.slots[1]) = true := by decide

/-- V-F5 -/
theorem test_vf5 : after (exec (.t4Reject 0x55) seeking55) (fun t => t.fstate == .clear) = true := by decide

/-- V-F6, at the first byte above the packet ids. -/
theorem test_vf6 : nextOf (exec (.t4Reject 0x5B) seeking) = some State.reset := by decide

/-- V-F7: the last payload byte, 0x55. -/
theorem test_vf7 :
    nextOf (exec (.t5Payload 0x55) (filling51 (Vector.replicate 8 0) 7)) =
      some (filling51 #v[0, 0, 0, 0, 0, 0, 0, 0x55] 8) := by decide

/-- 40_framer.md R105, example: fill 1, byte 0x40. -/
theorem test_r105_example :
    nextOf (exec (.t5Payload 0x40) (filling51 (Vector.replicate 8 0) 1)) = some (filling51 payE4 2) := by decide

/-- V-F8, the state: CLEAR, the slot keeps its contents. -/
theorem test_vf8_state :
    nextOf (exec (.t6ChecksumState 0xE6) (filling51 payE4 8)) =
      some { filling51 payE4 8 with fstate := .clear } := by decide

/-- V-F8, the event. -/
theorem test_vf8_event :
    after (exec (.t6ChecksumEmit 0xE6) (filling51 payE4 8)) (fun t => t.out.pktOk == some true &&
      t.out.packet == some ⟨0x55, 0x51, 0x0000000000004000, 0xE6⟩) = true := by decide

/-- V-F8b: the received byte is the checksum field, the packet is emitted although it is bad. -/
theorem test_vf8b_event :
    after (exec (.t6ChecksumEmit 0xE7) (filling51 payE4 8)) (fun t => t.out.pktOk == some false &&
      t.out.packet == some ⟨0x55, 0x51, 0x0000000000004000, 0xE7⟩) = true := by decide

/-! ### Control rows -/

/-- V-F16: reset in the middle of a frame. -/
theorem test_vf16_reset :
    nextOf (exec .reset { filling51 payE4 2 with validate := true }) =
      some { filling51 payE4 2 with fstate := .clear } := by decide

/-- V-F8c -/
theorem test_vf8c_idle : nextOf (exec .idle (filling51 payE4 2)) = some (filling51 payE4 2) := by decide

/-- V-V5 and V-V6: the delivery of the step is judged under the old VALIDATE, the new one stands after it. -/
theorem test_vv5 :
    after (stepOn ⟨false, true, 0xE7, true, true⟩ (filling51 payE4 8)) (fun t => t.out.pktDeliver == some true &&
      t.validate) = true := by decide

theorem test_vv6 :
    after (stepOn ⟨false, true, 0xE7, true, false⟩ { filling51 payE4 8 with validate := true }) (fun t =>
      t.out.pktDeliver == some false && t.out.packet.isSome && !t.validate) = true := by decide

/-- V-V7: reset wins over a VALIDATE write; no event, and pkt_deliver is not 1. -/
theorem test_vv7 :
    after (stepOn ⟨true, true, 0xE6, true, true⟩ { filling51 payE4 8 with validate := true }) (fun t =>
      !t.validate && t.out.packet.isNone && t.out.pktDeliver != some true) = true := by decide

/-! ### Checksum and delivery -/

/-- V-C5, V-C6 and V-C7: wrap-around. -/
theorem test_checksum_vectors :
    [checksumOf 0x55 0x51 (Vector.replicate 8 0xFF), checksumOf 0x55 0x51 #v[1, 2, 3, 4, 5, 6, 7, 8],
      checksumOf 0x55 0x51 (Vector.replicate 8 0x80)] = [0x9E, 0xCA, 0xA6] := by decide

/-- V-C8 -/
theorem test_checksum :
    after (exec .checksum (filling51 payE4 8)) (fun t => t.out.computed == some 0xE6) = true := by decide

/-- 41_checksum.md R131, example, and its corner case: 0x00 is a checksum like any other. -/
theorem test_compare :
    after (exec (.checksumCompare 0xE7) ((filling51 payE4 8).setOut { Outputs.quiet with computed := some 0xE6 }))
      (fun t => t.out.pktOk == some false) = true := by decide

theorem test_compare_zero :
    after (exec (.checksumCompare 0) (State.reset.setOut { Outputs.quiet with computed := some 0 }))
      (fun t => t.out.pktOk == some true) = true := by decide

/-- V-V4 and V-V3 -/
theorem test_vv4 :
    after (exec .deliver { withEvent 0x51 payE4 false with validate := true }) (fun t =>
      t.out.pktDeliver == some false) = true := by decide

theorem test_vv3 :
    after (exec .deliver { withEvent 0x51 payE4 true with validate := true }) (fun t =>
      t.out.pktDeliver == some true) = true := by decide

/-! ### Views -/

/-- V-D1 -/
theorem test_viewU8 :
    after (exec .viewU8 (withEvent 0x53 payE5 true)) (fun t =>
      t.out.decU8.map (·.toList.map zext) == some [0, 64, 0, 192, 0, 0, 168, 2]) = true := by decide

theorem test_viewI8 :
    after (exec .viewI8 (withEvent 0x53 payE5 true)) (fun t =>
      t.out.decI8.map (·.toList.map sext) == some [0, 64, 0, -64, 0, 0, -88, 2]) = true := by decide

theorem test_viewI16 :
    after (exec .viewI16 (withEvent 0x53 payE5 true)) (fun t =>
      t.out.decI16.map (·.toList.map sext) == some [16384, -16384, 0, 680]) = true := by decide

/-- V-D4 -/
theorem test_viewI32 :
    after (exec .viewI32 (withEvent 0x57 #v[0xD2, 0x02, 0x96, 0x49, 0x4F, 0x97, 0x21, 0xC5] true)) (fun t =>
      t.out.decI32.map (·.toList.map sext) == some [1234567890, -987654321]) = true := by decide

/-! ### Packet ids, each through the step its table word is placed for -/

/-- The lanes after the step that a table word is placed for, from a state. -/
def lanesOf (s : State) (w : Nat) : Option Lanes := (nextOf (step (s.withFetchWord 8 w))).bind (·.out.lanes)

/-- The reset state with a payload in every slot. -/
def holding (p : Payload) : State :=
  { State.reset with slots := Vector.replicate 11 { Slot.zero with payload := p } }

/-- E4: X = 16384, Y = Z = T = 0. -/
theorem test_lanes_acceleration : lanesOf (holding payE4) 0x51 = some (.axes 16384 0 0 0) := by decide

theorem test_lanes_angularVelocity : lanesOf (holding payE5) 0x52 = some (.axes 16384 0xC000 0 680) := by decide

/-- E5: roll 16384, pitch −16384, yaw 0, T 680. -/
theorem test_lanes_angles : lanesOf (holding payE5) 0x53 = some (.angles 16384 0xC000 0 680) := by decide

theorem test_lanes_magnetometer : lanesOf (holding payE5) 0x54 = some (.fields 16384 0xC000 0 680) := by decide

/-- V-D4 with id 0x57 -/
theorem test_lanes_gpsCoordinates :
    lanesOf (holding #v[0xD2, 0x02, 0x96, 0x49, 0x4F, 0x97, 0x21, 0xC5]) 0x57 =
      some (.coordinates 1234567890 (BitVec.ofInt 32 (-987654321))) := by decide

theorem test_lanes_gpsGroundSpeed : lanesOf (holding payE5) 0x58 = some .unsupported := by decide

/-- P5: quaternion 32767, −32768, 1, −1. -/
theorem test_lanes_orientation :
    lanesOf (holding #v[0xFF, 0x7F, 0x00, 0x80, 0x01, 0x00, 0xFF, 0xFF]) 0x59 =
      some (.quaternion 0x7FFF 0x8000 1 0xFFFF) := by decide

theorem test_lanes_unassigned :
    [0x50, 0x56, 0x5A].map (lanesOf (holding payE5)) = List.replicate 3 (some .unassigned) := by decide

theorem test_lanes_dataPortStatus :
    after (exec .idDataPortStatus (withEvent 0x55 payE5 true)) (fun t => t.out.lanes == some .unassigned) = true := by
  decide

/-- The placed words of T1_HEADER and of a byte that is neither header nor packet id run from reset. -/
theorem test_step_placed_header :
    after (step (State.reset.withFetchWord 8 0x55)) (fun t => t.fstate == .seekId) = true := by decide

theorem test_step_placed_noise :
    after (step (State.reset.withFetchWord 8 0x00)) (fun t => t.fstate == .clear) = true := by decide

/-! ### Witnesses: for each statement with hypotheses, values that meet them together -/

theorem witness_EncodeThenDecodeSelectsTheRow :
    (Instr.t2Noise 0x54).wf without55 = true ∧ (Instr.t3Id 0x5A).wf without55 = true ∧
      (Instr.t4Reject 0x55).wf without55 = true := by decide

/-- Two different records with the same rows: under rst = 1, and without in_valid and cfg_we. -/
theorem witness_DecodingDropsNoBit :
    decode without55 .clear ⟨true, true, 0x55, true, false⟩ = decode without55 .clear ⟨true, false, 0x00, false, true⟩ ∧
      decode without55 .clear ⟨false, false, 0x55, false, false⟩ =
        decode without55 .clear ⟨false, false, 0x00, false, true⟩ ∧
      decode without55 .clear ⟨false, false, 0x55, false, false⟩ = [.idle] := by decide

theorem witness_EveryByteSelectsItsTableRow :
    decode without55 .clear (Decode.byteRecord 0x55) = [.t1Header] ∧
      decode without55 .clear (Decode.byteRecord 0x54) = [.t2Noise 0x54] ∧
      decode without55 .seekId (Decode.byteRecord 0x50) = [.t3Id 0x50] ∧
      decode without55 .seekId (Decode.byteRecord 0x4F) = [.t4Reject 0x4F] ∧
      decode without55 (.filling 7 0x50) (Decode.byteRecord 0) = [.t5Payload 0] ∧
      (decode without55 (.filling 8 0x50) (Decode.byteRecord 0)).length = 10 := by decide

theorem witness_StepRunsTheSelectedRows :
    decode State.reset.registered State.reset.position State.reset.nextInput = [.idle] := by decide

/-- The invariant holds while FILLING, and fails where the slot does not carry the id. -/
theorem witness_StepKeepsTheInvariant :
    (filling51 payE4 7).inv = true ∧ isNext (step (filling51 payE4 7)) = true ∧
      ({ filling51 payE4 7 with activeId := 0x52 } : State).inv = false := by decide

theorem witness_midFrame : (filling51 payE4 7).midFrame 1 := ⟨rfl, _, rfl⟩

theorem witness_NoInputSequenceStopsTheBlock : (filling51 payE4 8).inv = true := by decide

/-- A state without a slot: which of the two clauses it meets is a free value, and it meets one (log 9). -/
theorem witness_WithoutASlotTheFrameIsFree :
    lost.fstate = .filling ∧ lost.activeSlot? = none ∧ (lost.active.fill.val < 8 ∨ lost.active.fill = 8) := by
  refine ⟨rfl, rfl, ?_⟩
  have := lost.active.fill.isLt
  rcases Nat.lt_or_ge lost.active.fill.val 8 with h | h
  · exact .inl h
  · exact .inr (Fin.ext (show _ = 8 by omega))

/-- In such a state the records that carry no byte have their own effect. -/
theorem test_no_slot_reset_and_idle :
    after (stepOn Decode.resetRecord lost) (fun t => t.fstate == .clear) = true ∧
      after (stepOn (Decode.validateRecord true) lost) (·.validate) = true := by decide

/-- Each writer of VALIDATE, and no writer. -/
theorem witness_ValidateHasTwoWriters :
    after (stepOn ⟨true, false, 0, true, true⟩ State.reset) (fun t => !t.validate) = true ∧
      after (stepOn ⟨false, false, 0, true, true⟩ State.reset) (·.validate) = true ∧
      after (stepOn ⟨false, true, 0, false, true⟩ State.reset) (fun t => !t.validate) = true := by decide

theorem witness_ActiveIdIsWrittenOnlyByTheIdByte :
    after (stepOn (Decode.byteRecord 0x51) seeking) (fun t => t.activeId != seeking.activeId) = true := by decide

/-- A step that initialises slot 10, and one that stores the last payload byte in slot 1. -/
theorem witness_OnlyTheSelectedSlotChanges :
    after (stepOn (Decode.byteRecord 0x5A) seeking) (fun t => t.slot? 10 != seeking.slot? 10) = true ∧
      after (stepOn (Decode.byteRecord 0xFF) (filling51 payE4 7)) (fun t =>
        t.slot? 1 != (filling51 payE4 7).slot? 1) = true := by decide

/-- A step with an event and one, a byte earlier, without. -/
theorem witness_EventExactlyAtTheChecksumByte :
    after (stepOn (Decode.byteRecord 0xE6) (filling51 payE4 8)) (·.out.packet.isSome) = true ∧
      after (stepOn (Decode.byteRecord 0xE6) (filling51 payE4 7)) (·.out.packet.isNone) = true := by decide

theorem witness_PortsAreAllDrivenOrAllQuiet :
    after (stepOn (Decode.byteRecord 0xE6) (filling51 payE4 8)) (fun t => t.out.pktDeliver == some true) = true ∧
      after (stepOn Decode.idleRecord (filling51 payE4 8)) (fun t => t.out == Outputs.quiet) = true := by decide

theorem witness_HeaderByteLeadsToSeekId : State.reset.fstate = .clear := rfl

theorem witness_NoiseByteIsDiscarded : State.reset.fstate = .clear ∧ (0x54 : Byte) ≠ 0x55 := by decide

/-- The lowest and the highest id. -/
theorem witness_IdByteInitialisesItsSlot :
    seeking.fstate = .seekId ∧ isRegistered seeking.registered 0x50 = true ∧
      isRegistered seeking.registered 0x5A = true := by decide

theorem witness_RejectedIdLeadsToClear :
    seeking55.fstate = .seekId ∧ isRegistered seeking55.registered 0x55 = false ∧
      isRegistered seeking55.registered 0x4F = false ∧ isRegistered seeking55.registered 0x5B = false := by decide

theorem witness_PayloadByteIsStoredAtFill :
    (filling51 payE4 7).fstate = .filling ∧
      (filling51 payE4 7).activeSlot? = some (1, ⟨0x55, 0x51, payE4, 7⟩) ∧ (7 : Fin 9).val < 8 := by decide

theorem witness_ChecksumByte :
    (filling51 payE4 8).fstate = .filling ∧
      (filling51 payE4 8).activeSlot? = some (1, ⟨0x55, 0x51, payE4, 8⟩) := by decide

/-- Each clause of RowsOutsideTheirConditionAreRefused meets a state. -/
theorem witness_RowsOutsideTheirConditionAreRefused :
    seeking.fstate ≠ .clear ∧ State.reset.fstate ≠ .seekId ∧ State.reset.fstate ≠ .filling ∧
      isRegistered seeking.registered 0x60 = false ∧ isRegistered seeking.registered 0x51 = true ∧
      (filling51 payE4 8).active.fill = 8 ∧ (filling51 payE4 7).active.fill.val < 8 ∧
      State.reset.out.computed = none := by decide

theorem witness_ResetAndIdleRecords :
    Decode.resetRecord.rst = true ∧ Decode.idleRecord.rst = false ∧ Decode.idleRecord.inValid = false := by decide

/-- A step that asks for no VALIDATE write and answers a next state. -/
theorem witness_ValidateWriteChangesOnlyValidate :
    (Decode.byteRecord 0xE7).cfgWe = false ∧ (Decode.byteRecord 0xE7).rst = false ∧
      isNext (stepOn (Decode.byteRecord 0xE7) (filling51 payE4 8)) = true := by decide

/-- The ten bytes of E4 and four others: two swapped, one changed, two changed by opposite amounts. -/
def ten4 : Vector Byte 10 := #v[0x55, 0x51, 0x00, 0x40, 0, 0, 0, 0, 0, 0]

theorem witness_ChecksumLaws_order :
    ten4.toList.Perm (#v[0x55, 0x51, 0x40, 0x00, 0, 0, 0, 0, 0, 0] : Vector Byte 10).toList := by decide

theorem witness_ChecksumLaws_one_change :
    ten4[2] ≠ (#v[0x55, 0x51, 0x00, 0x41, 0, 0, 0, 0, 0, 0] : Vector Byte 10)[3] ∧
      compareOk (checksumTen ten4) 0xE6 = true ∧ (0xE7 : Byte) ≠ 0xE6 := by decide

theorem witness_ChecksumLaws_two_changes :
    ((0x01 : Byte) - 0x00) + ((0x3F : Byte) - 0x40) = 0 := by decide

theorem witness_CompareIsExactEquality :
    ((filling51 payE4 8).setOut { Outputs.quiet with computed := some 0xE6 }).out.computed = some 0xE6 := by decide

theorem witness_DeliverFiltersOnlyBadPackets :
    (withEvent 0x51 payE4 false).out.packet.isSome = true ∧
      (withEvent 0x51 payE4 false).out.pktOk = some false := by decide

theorem witness_BadFramesAreEmittedAndJudgedByTheOldValidate :
    (filling51 payE4 8).activeSlot? = some (1, ⟨0x55, 0x51, payE4, 8⟩) ∧
      (⟨false, true, 0xE7, true, true⟩ : InputRecord).rst = false := by decide

theorem witness_WithoutAnEventNothingIsDriven : State.reset.out.packet = none := rfl

/-- An event whose payload port is a packing: the hypotheses of the four views. -/
theorem witness_Views :
    ∃ k, (withEvent 0x53 payE5 true).out.packet = some k ∧ k.payload = packPayload payE5 := ⟨_, rfl, rfl⟩

/-- An event of every packet kind, for the packet-id statements. -/
theorem witness_Lanes (k : PacketId) :
    ∃ p, (withEvent (idCode k) payE5 true).out.packet = some p ∧ p.id = idCode k := ⟨_, rfl, rfl⟩

theorem witness_LanesUnderAnotherKindAreRefused :
    (withEvent 0x51 payE5 true).out.packet.map (·.id) = some 0x51 ∧ (0x51 : Byte) ≠ idCode .angles ∧
      State.reset.out.packet = none := by decide

/-- A run with an idle record inside, and without it. -/
theorem witness_IdleRecordsDoNotMatter :
    (drive [Decode.idleRecord, Decode.byteRecord 0x55] State.reset).isSome = true ∧
      isIdleRecord Decode.idleRecord = true ∧ isIdleRecord (Decode.byteRecord 0) = false := by decide

theorem witness_ElevenBytesPerEvent :
    (filling51 payE4 8).inv = true ∧ (feed [0xE6] (filling51 payE4 8)).isSome = true ∧ (filling51 payE4 8).consumed = 10 := by decide

/-- The hypotheses of each clause of FramerReturnsToClear. -/
theorem witness_FramerReturnsToClear :
    (filling51 payE4 8).activeSlot? = some (1, ⟨0x55, 0x51, payE4, 8⟩) ∧ seeking.fstate = .seekId ∧
      isRegistered seeking.registered 0x5B = false ∧ isRegistered seeking.registered 0x5A = true := by decide

theorem witness_NoiseIsAbsorbed : State.reset.fstate = .clear ∧ (0x55 : Byte) ∉ [0x00, 0x51, 0xFF] := by decide

/-- The frame of E4. -/
def frameE4 : Frame := { id := 0x51, payload := payE4, checksum := 0xE6 }

/-- One frame with an idle record between its header and its id. -/
theorem witness_FramesInPhaseStayInPhase :
    isRegistered State.reset.registered frameE4.id = true ∧
      ((Decode.byteRecord 0x55 :: Decode.idleRecord :: frameE4.bytes.tail.map Decode.byteRecord).filter fun r =>
        !isIdleRecord r) = ([frameE4].flatMap Frame.bytes).map Decode.byteRecord := by decide

theorem witness_ResynchronisesAfterGarbage :
    isRegistered State.reset.registered frameE4.id = true ∧
      frameE4.checksum = checksumOf 0x55 frameE4.id frameE4.payload ∧ (0x55 : Byte) ∉ [0x13, 0x51] := by decide

theorem witness_DoubleHeaderLosesTheFrame :
    isRegistered Config.defaultRegistered 0x55 = true ∧ isRegistered without55 0x55 = false ∧
      (0x51 : Byte) ≠ 0x55 := by decide

/-- Two different states the ports cannot tell apart: a different ACTIVE_ID outside FILLING. -/
theorem witness_UnspecifiedStateIsInvisible :
    State.reset.agree { State.reset with activeId := 0xAA } ∧
      State.reset ≠ { State.reset with activeId := 0xAA } :=
  ⟨⟨rfl, rfl, rfl, rfl, fun h => nomatch h⟩, by decide⟩

/-- The ends of the int16 and the int32 range. -/
theorem witness_PseudoFramesCarryTheirValues :
    (∀ c ∈ ([-32768, 32767, 0, -1] : List Int), -32768 ≤ c ∧ c ≤ 32767) ∧
      (∀ d ∈ ([-2147483648, 2147483647] : List Int), -2147483648 ≤ d ∧ d ≤ 2147483647) := by decide

theorem witness_CoreRunsAsDriven : (drive [Decode.byteRecord 0x55] State.reset).isSome = true := by decide

end Sys2Proof.Tests
end

section
/-! PROOFS. The framer transitions of 40_framer.md R102 to R106 and R108, and the empty feed of R113. First what each
meaning answers where its row is selected; then the statements about it. -/

namespace Sys2Proof.Machine

/-! ### One more payload byte -/

/-- The contents of a slot after one more payload byte (40_framer.md R105). -/
def Slot.push (S : Slot) (b : Byte) (hn : S.fill.val < 8) : Slot :=
  { S with payload := S.payload.set S.fill.val b, fill := ⟨S.fill.val + 1, by omega⟩ }

theorem Slot.push_payload (S : Slot) (b : Byte) (hn : S.fill.val < 8) (i : Nat) (hi : i < 8) :
    (S.push b hn).payload[i] = if i = S.fill.val then b else S.payload[i] := by
  simp only [Slot.push, Vector.getElem_set, eq_comm]

/-! ### The rows on the states that select them -/

section SelectedRows

variable {s : State}

theorem execT1Header_of_clear (hf : s.fstate = .clear) : execT1Header s = .next (s.quiet.setFState .seekId) :=
  if_pos hf

theorem execT2Noise_of_clear {b : Byte} (hf : s.fstate = .clear) (hb : b ≠ Config.header) :
    execT2Noise b s = .next s.quiet :=
  if_pos ⟨hf, hb⟩

theorem execT3Id_of_slot {b : Byte} {k : Nat} {old : Slot} (hf : s.fstate = .seekId)
    (hb : isRegistered s.registered b = true) (hk : slotIndex b = some k) (ho : s.slot? k = some old) :
    execT3Id b s = .next (((s.quiet.setSlot k
      { header := Config.header, id := b, payload := old.payload, fill := 0 }).setActiveId b).setFState .filling) := by
  rw [execT3Id, if_pos ⟨hf, hb⟩, State.openSlot_eq (s := s.quiet) hk ho]

theorem execT4Reject_of_seekId {b : Byte} (hf : s.fstate = .seekId) (hb : isRegistered s.registered b = false) :
    execT4Reject b s = .next (s.quiet.setFState .clear) :=
  if_pos ⟨hf, hb⟩

theorem execT5Payload_of_filling {b : Byte} {k : Nat} {S : Slot} (hf : s.fstate = .filling)
    (hS : s.activeSlot? = some (k, S)) (hn : S.fill.val < 8) :
    execT5Payload b s = .next (s.quiet.setSlot k (S.push b hn)) := by
  rw [execT5Payload, State.withActiveSlot_eq hf, State.active_eq hS, dif_pos hn,
    State.putActive_eq (s := s.quiet) hS, Slot.push]

theorem execT6ChecksumState_of_filling {b : Byte} {k : Nat} {S : Slot} (hf : s.fstate = .filling)
    (hS : s.activeSlot? = some (k, S)) (h8 : S.fill = 8) :
    execT6ChecksumState b s = .next (s.setFState .clear) := by
  rw [execT6ChecksumState, State.withActiveSlot_eq hf, State.active_eq hS, if_pos h8, State.drawIfAbsent_eq hS]

end SelectedRows

/-- A registered id selects slot `id − 0x50`, one of slots 0..10 (20_memory.md R47). -/
theorem isRegistered_slotIndex_sub {reg : Registered} {b : Byte} (h : isRegistered reg b = true) :
    slotIndex b = some (b.toNat - 0x50) ∧ b.toNat - 0x50 < 11 := by
  obtain ⟨k, hlt, hk⟩ := isRegistered_slotIndex h
  obtain ⟨-, rfl⟩ := slotIndex_eq_some.mp hk
  exact ⟨hk, hlt⟩

/-! ### The statements -/

/-- Settles O18: a registered id selects a slot that is there; it alone is written. -/
theorem idByteInitialisesItsSlot : Obligations.IdByteInitialisesItsSlot := by
  intro s b hf hb
  obtain ⟨hk, hlt⟩ := isRegistered_slotIndex_sub hb
  have ho : s.slot? (b.toNat - 0x50) = some s.slots[b.toNat - 0x50] := State.slot?_of_lt s hlt
  refine ⟨_, _, execT3Id_of_slot hf hb hk ho, rfl, rfl, ho, ?slot, fun j hj => ?others, ?_, ?_, ?_, ?_, ?_, ?_⟩
  case slot => exact State.setSlot_slot?_same s.quiet _ ho
  case others => exact State.setSlot_slot?_other s.quiet _ hj
  all_goals simp

/-- Settles O20: the row writes the active slot with the byte pushed, and no other slot. -/
theorem payloadByteIsStoredAtFill : Obligations.PayloadByteIsStoredAtFill := by
  intro s b k S hf hS hn
  obtain ⟨-, hk⟩ := State.activeSlot?_eq_some.mp hS
  refine ⟨_, S.push b hn, execT5Payload_of_filling hf hS hn, ?slot, rfl, rfl, rfl, Slot.push_payload S b hn,
    fun j hj => ?others, ?fstate, ?_, ?_, ?_, ?_, ?_, ?_, ?_⟩
  case slot => exact State.setSlot_slot?_same s.quiet _ hk
  case others => exact State.setSlot_slot?_other s.quiet _ hj
  case fstate => simpa using hf
  all_goals simp

/-- Settles O16: T1_HEADER is selected in CLEAR and writes only FSTATE and the quiet outputs. -/
theorem headerByteLeadsToSeekId : Obligations.HeaderByteLeadsToSeekId :=
  fun _ hf => execT1Header_of_clear hf

/-- Settles O17: T2_NOISE is selected in CLEAR by every byte but the header and writes only the quiet outputs. -/
theorem noiseByteIsDiscarded : Obligations.NoiseByteIsDiscarded :=
  fun _ _ hf hb => execT2Noise_of_clear hf hb

/-- Settles O19: T4_REJECT is selected in SEEKID by every unregistered byte and writes only FSTATE and the quiet
outputs. -/
theorem rejectedIdLeadsToClear : Obligations.RejectedIdLeadsToClear :=
  fun _ _ hf hb => execT4Reject_of_seekId hf hb

/-- Settles O21: with an active slot at fill 8, no free value is drawn and only FSTATE is written. -/
theorem checksumByteLeadsToClear : Obligations.ChecksumByteLeadsToClear :=
  fun _ b _ _ hf hS h8 => execT6ChecksumState_of_filling (b := b) hf hS h8

/-- Settles O45: a feed of no bytes drives no record. -/
theorem emptyFeedIsANoOp : Obligations.EmptyFeedIsANoOp := by
  intro s
  simp only [feed, List.map_nil, drive_nil, Option.map_some, eventsOf_nil]

end Sys2Proof.Machine
end

section
/-! PROOFS. The decoder views of 42_decoder.md R151 to R153. First what each view answers on an event and which pattern
each of its lanes holds; then the statements about the lanes' readings. -/

namespace Sys2Proof.Machine

/-! ### The readings of a pattern -/

/-- The two's-complement reading of a pattern is the arithmetic one (00_scope.md R11), for every width. -/
theorem sext_eq_signedValue {n : Nat} (v : BitVec n) : sext v = signedValue n v.toNat := by
  rw [sext, BitVec.toInt_eq_toNat_cond, signedValue]
  cases n with
  | zero => simp [BitVec.eq_nil v]
  | succ m =>
    have half : 2 * v.toNat < 2 ^ (m + 1) ↔ v.toNat < 2 ^ (m + 1 - 1) := by
      rw [Nat.pow_succ', Nat.add_sub_cancel]
      omega
    simp only [half]

/-! ### The views on an event -/

section Event
variable {s : State} {k : RawPacket} {p : Payload}
  (hk : s.out.packet = some k) (hp : k.payload = packPayload p)
include hk hp

theorem execViewU8_of_event : execViewU8 s = .next (s.setOut { s.out with decU8 := some p }) := by
  simp only [execViewU8, hk, hp, viewU8Of_packPayload]

theorem execViewI8_of_event : execViewI8 s = .next (s.setOut { s.out with decI8 := some p }) := by
  simp only [execViewI8, hk, hp, viewI8Of_packPayload]

theorem execViewI16_of_event :
    execViewI16 s = .next (s.setOut { s.out with decI16 := some (viewI16Of (packPayload p)) }) := by
  simp only [execViewI16, hk, hp]

end Event

/-- Lane `i` of `dec_i16` is the int16 cell of payload bytes `2i` and `2i+1` (42_decoder.md R153, 20_memory.md R41). -/
theorem viewI16Of_packPayload_getElem (p : Payload) (i : Nat) (h : i < 4) :
    (viewI16Of (packPayload p))[i] = le16 p (2 * i) (by omega) := by
  simp only [viewI16Of_packPayload]
  match i, h with
  | 0, _ | 1, _ | 2, _ | 3, _ => rfl

/-! ### The statements -/

/-- Settles O35: the lanes are the payload bytes themselves, and `zext` reads a byte unsigned. -/
theorem viewU8ReadsUnsignedBytes : Obligations.ViewU8ReadsUnsignedBytes :=
  fun _ _ p hk hp => ⟨p, execViewU8_of_event hk hp, fun _ _ => rfl⟩

/-- Settles O36: the lanes are the payload bytes themselves, and `sext` reads a byte in two's complement. -/
theorem viewI8ReadsSignedBytes : Obligations.ViewI8ReadsSignedBytes :=
  fun _ _ p hk hp => ⟨p, execViewI8_of_event hk hp, fun i hi => sext_eq_signedValue p[i]⟩

/-- Settles O37: each lane is a little-endian cell of the payload, and `sext` reads it in two's complement. -/
theorem viewI16IsLittleEndian : Obligations.ViewI16IsLittleEndian := by
  intro s k p hk hp
  refine ⟨viewI16Of (packPayload p), execViewI16_of_event hk hp, fun i hi => ?lane⟩
  case lane => rw [viewI16Of_packPayload_getElem p i hi, sext_eq_signedValue, le16_toNat]

end Sys2Proof.Machine
end

section
/-! PROOFS. The step as the spec's pseudocode (40_framer.md R100, R101). First the checksum as a sum of numbers and the
outputs of an event as the pseudocode assembles them from payload bytes; then one equation for every step. -/

namespace Sys2Proof.Machine

/-! ### The checksum and the outputs of an event -/

/-- The wrap-around sum is the integer sum mod 256 (41_checksum.md R130). -/
theorem checksumOf_toNat (h id : Byte) (p : Payload) : (checksumOf h id p).toNat =
    (h.toNat + id.toNat + p[0].toNat + p[1].toNat + p[2].toNat + p[3].toNat + p[4].toNat + p[5].toNat +
      p[6].toNat + p[7].toNat) % 256 := by
  simp only [checksumOf, BitVec.toNat_add]
  omega

theorem payload_toNat_sum (p : Payload) : (p.toList.map BitVec.toNat).sum =
    p[0].toNat + p[1].toNat + p[2].toNat + p[3].toNat + p[4].toNat + p[5].toNat + p[6].toNat + p[7].toNat := by
  rw [payload_eta p]
  simp [Nat.add_assoc]

theorem refChecksum_eq (h id : Byte) (p : Payload) : refChecksum h id p = checksumOf h id p := by
  apply BitVec.eq_of_toNat_eq
  rw [refChecksum, payload_toNat_sum, checksumOf_toNat, BitVec.toNat_ofNat]
  omega

/-- The lanes read from `pkt_payload` are those assembled from the payload bytes. -/
theorem eventLanes_packPayload (id : Byte) (p : Payload) : eventLanes id (packPayload p) = refLanes id p := by
  unfold eventLanes refLanes
  cases packetKind id with
  | none => rfl
  | some k =>
    cases k <;> simp only [Option.map_some, axesLanes, cell16_packPayload p 0 (by omega),
      cell16_packPayload p 1 (by omega), cell16_packPayload p 2 (by omega), cell16_packPayload p 3 (by omega),
      cell32_packPayload p 0 (by omega), cell32_packPayload p 1 (by omega)]

theorem compareOk_eq_decide (c b : Byte) : compareOk c b = decide (c = b) := rfl

theorem deliverOf_eq_decide (v ok : Bool) : deliverOf v ok = decide (v = false ∨ ok = true) := by
  cases v <;> cases ok <;> rfl

/-- The event the pseudocode returns for the checksum byte `b` of slot `S` (40_framer.md R101). -/
def Slot.refEvent (S : Slot) (b : Byte) : RefEvent :=
  { header := S.header, id := S.id, payload := S.payload, checksum := b,
    ok := decide (refChecksum S.header S.id S.payload = b) }

theorem eventOutputs_eq_refOutputs (S : Slot) (b : Byte) (v : Bool) :
    eventOutputs S b v = refOutputs (some (S.refEvent b)) v := by
  simp only [eventOutputs, refOutputs, Slot.refEvent, refChecksum_eq, Slot.checksum, compareOk_eq_decide,
    deliverOf_eq_decide, viewU8Of_packPayload, viewI8Of_packPayload, viewI16Of_packPayload, viewI32Of_packPayload,
    eventLanes_packPayload]

/-! ### Quiet outputs and the writes of a step -/

theorem State.quiet_putActive (s : State) (v : Slot) : s.quiet.putActive v = (s.putActive v).quiet := by
  cases hS : s.activeSlot? with
  | none => rw [State.putActive_absent (s := s.quiet) hS, State.putActive_absent hS]; rfl
  | some kS =>
    rw [State.putActive_eq (s := s.quiet) hS, State.putActive_eq hS, State.setSlot, State.setSlot]
    split <;> rfl

/-! ### The byte step of the pseudocode, case by case -/

section RefByteStep
variable {s : State} {b : Byte}

theorem refByteStep_seekId_registered {old : Slot} (hf : s.fstate = .seekId) (hb : isRegistered s.registered b = true)
    (ho : s.slot? (b.toNat - 0x50) = some old) :
    refByteStep s b = (((s.setSlot (b.toNat - 0x50)
      { header := Config.header, id := b, payload := old.payload, fill := 0 }).setActiveId b).setFState .filling,
        none) := by
  simp only [refByteStep, hf, hb, if_true, ho]
  rfl

theorem refByteStep_payload (hf : s.fstate = .filling) (hn : s.active.fill.val < 8) :
    refByteStep s b = (s.putActive (s.active.push b hn), none) := by
  simp only [refByteStep, hf, hn, dite_true]
  rfl

theorem refByteStep_checksum (hf : s.fstate = .filling) (h8 : s.active.fill = 8) :
    refByteStep s b = (s.drawIfAbsent.setFState .clear, some (s.active.refEvent b)) := by
  have hn : ¬ s.active.fill.val < 8 := by rw [h8]; decide
  simp only [refByteStep, hf, hn, dite_false]
  rfl

end RefByteStep

/-! ### The step -/

/-- A byte step of the pseudocode without an event. -/
theorem refStep_of_byte {s u : State} {r : InputRecord} {ev : Option RefEvent} (hr : r.rst = false)
    (hv : r.inValid = true) (hu : refByteStep s r.inByte = (u, ev)) (hval : u.validate = s.validate) :
    refStep s r = (u.setOut (refOutputs ev s.validate)).cfgWritten r := by
  simp only [refStep, hr, hv, hu, Bool.false_eq_true, if_false, if_true, State.cfgWritten, State.setOut_validate, hval]
  rfl

theorem stepOn_of_refByteStep {s u t : State} {r : InputRecord} {ev : Option RefEvent} (hr : r.rst = false)
    (hv : r.inValid = true) (hu : refByteStep s r.inByte = (u, ev)) (hval : u.validate = s.validate)
    (ht : stepOn r s = .next (t.cfgWritten r)) (hout : t = u.setOut (refOutputs ev s.validate)) :
    stepOn r s = .next (refStep s r) := by
  rw [refStep_of_byte hr hv hu hval, ht, hout]

/-- Every step is a step of the pseudocode. -/
theorem stepOn_eq_refStep (r : InputRecord) (s : State) : stepOn r s = .next (refStep s r) := by
  cases hr : r.rst with
  | true => rw [stepOn_reset hr, refStep, if_pos hr]; rfl
  | false =>
  cases hv : r.inValid with
  | false =>
    rw [stepOn_idle hr hv, refStep, if_neg (by simp [hr]), hv]
    rfl
  | true =>
  cases hf : s.fstate with
  | clear =>
    by_cases hb : r.inByte = 0x55
    · exact stepOn_of_refByteStep (u := s.setFState .seekId) (ev := none) hr hv
        (by simp only [refByteStep, hf, hb, if_true]; rfl) rfl (stepOn_header hr hv hf hb) rfl
    · exact stepOn_of_refByteStep (u := s) (ev := none) hr hv
        (by simp only [refByteStep, hf, hb, if_false]) rfl (stepOn_noise hr hv hf hb) rfl
  | seekId =>
    cases hb : isRegistered s.registered r.inByte with
    | true =>
      obtain ⟨hk, hlt⟩ := isRegistered_slotIndex_sub hb
      have ho := State.slot?_of_lt s hlt
      refine stepOn_of_refByteStep hr hv (refByteStep_seekId_registered hf hb ho) (by simp)
        (stepOn_id hr hv hf hb hk ho) ?_
      simp only [State.setSlot]
      rw [dif_pos hlt, dif_pos hlt]; rfl
    | false =>
      exact stepOn_of_refByteStep (u := s.setFState .clear) (ev := none) hr hv
        (by simp only [refByteStep, hf, hb, Bool.false_eq_true, if_false]; rfl) rfl (stepOn_reject hr hv hf hb) rfl
  | filling =>
    by_cases hn : s.active.fill.val < 8
    · exact stepOn_of_refByteStep hr hv (refByteStep_payload hf hn) (by simp) (stepOn_payload_active hr hv hf hn)
        (State.quiet_putActive s _)
    · have h8 := Slot.fill_eq_eight hn
      exact stepOn_of_refByteStep hr hv (refByteStep_checksum hf h8) (by simp) (stepOn_checksum_active hr hv hf h8)
        (by rw [eventOutputs_eq_refOutputs])

/-- Settles O6: a step takes the next record and is the pseudocode's step on the state without it. -/
theorem stepIsThePseudocode : Obligations.StepIsThePseudocode := by
  intro s
  rw [step_eq_stepOn, stepOn_eq_refStep]
  rfl

end Sys2Proof.Machine
end

section
/-! PROOFS. What one step keeps and what it writes: the invariant of 10_state.md R25, the two writers of VALIDATE
(R28), the one writer of ACTIVE_ID (R23), the slots (R24) and the output ports (R31); and that no sequence of records
stops the block (60_exceptions.md R200). -/

namespace Sys2Proof.Machine

/-! ### The kinds of step -/

/-- The kinds of step with record `r` from state `s`, each with the condition that selects it and the state it gives. -/
inductive StepKind (s : State) (r : InputRecord) : State → Prop
  | reset (hr : r.rst = true) : StepKind s r ((s.quiet.setFState .clear).setValidate false)
  | idle (hr : r.rst = false) (hv : r.inValid = false) : StepKind s r (s.quiet.cfgWritten r)
  | header (hr : r.rst = false) (hv : r.inValid = true) (hf : s.fstate = .clear) (hb : r.inByte = Config.header) :
      StepKind s r ((s.quiet.setFState .seekId).cfgWritten r)
  | noise (hr : r.rst = false) (hv : r.inValid = true) (hf : s.fstate = .clear) (hb : r.inByte ≠ Config.header) :
      StepKind s r (s.quiet.cfgWritten r)
  | id {k : Nat} {old : Slot} (hr : r.rst = false) (hv : r.inValid = true) (hf : s.fstate = .seekId)
      (hb : isRegistered s.registered r.inByte = true) (hk : slotIndex r.inByte = some k) (hlt : k < 11)
      (ho : s.slot? k = some old) :
      StepKind s r ((((s.quiet.setSlot k
        { header := Config.header, id := r.inByte, payload := old.payload, fill := 0 }).setActiveId
          r.inByte).setFState .filling).cfgWritten r)
  | reject (hr : r.rst = false) (hv : r.inValid = true) (hf : s.fstate = .seekId)
      (hb : isRegistered s.registered r.inByte = false) : StepKind s r ((s.quiet.setFState .clear).cfgWritten r)
  | payload {k : Nat} {S : Slot} (hr : r.rst = false) (hv : r.inValid = true) (hf : s.fstate = .filling)
      (hS : s.activeSlot? = some (k, S)) (hn : S.fill.val < 8) :
      StepKind s r ((s.quiet.setSlot k (S.push r.inByte hn)).cfgWritten r)
  | checksum {k : Nat} {S : Slot} (hr : r.rst = false) (hv : r.inValid = true) (hf : s.fstate = .filling)
      (hS : s.activeSlot? = some (k, S)) (h8 : S.fill = 8) :
      StepKind s r (((s.setFState .clear).setOut (eventOutputs S r.inByte s.validate)).cfgWritten r)
  | absentPayload (hr : r.rst = false) (hv : r.inValid = true) (hf : s.fstate = .filling)
      (hS : s.activeSlot? = none) (hn : s.absentSlot.fill.val < 8) :
      StepKind s r (({ s.quiet with draws := s.draws + 1 } : State).cfgWritten r)
  | absentChecksum (hr : r.rst = false) (hv : r.inValid = true) (hf : s.fstate = .filling)
      (hS : s.activeSlot? = none) (h8 : s.absentSlot.fill = 8) :
      StepKind s r (((({ s with draws := s.draws + 1 } : State).setFState .clear).setOut
        (eventOutputs s.absentSlot r.inByte s.validate)).cfgWritten r)

variable {s t : State} {r : InputRecord}

theorem stepOn_kind (h : stepOn r s = .next t) : StepKind s r t := by
  rcases stepOn_cases h with ⟨hr, rfl⟩ | ⟨hr, hv, rfl⟩ | ⟨hr, hv, hbyte⟩
  · exact .reset hr
  · exact .idle hr hv
  rcases hbyte with ⟨hf, hb, rfl⟩ | ⟨hf, hb, rfl⟩ | ⟨k, old, hf, hb, hk, hlt, ho, rfl⟩ | ⟨hf, hb, rfl⟩ |
    ⟨k, S, hf, hS, hn, rfl⟩ | ⟨k, S, hf, hS, h8, rfl⟩ | ⟨hf, hS, hn, rfl⟩ | ⟨hf, hS, h8, rfl⟩
  · exact .header hr hv hf hb
  · exact .noise hr hv hf hb
  · exact .id hr hv hf hb hk hlt ho
  · exact .reject hr hv hf hb
  · exact .payload hr hv hf hS hn
  · exact .checksum hr hv hf hS h8
  · exact .absentPayload hr hv hf hS hn
  · exact .absentChecksum hr hv hf hS h8

/-- The state a step's record is put to: the one without that record. -/
def State.rest (s : State) : State := s.setInputs s.inputs.tail

/-- What holds of `stepOn` holds of a step, which takes the next record. -/
theorem stepOn_of_step (h : step s = .next t) : stepOn s.nextInput s.rest = .next t := by
  rwa [State.rest, ← step_eq_stepOn]

/-- Settles O5: the step is the run of its rows, and a run of one row is its `exec`. -/
theorem stepRunsTheSelectedRows : Obligations.StepRunsTheSelectedRows := by
  intro s
  refine ⟨step_eq_runRows s, fun i hi => ?single⟩
  case single => rw [step_eq_runRows, hi, runRows_singleton]; rfl

/-! ### The invariant -/

/-- The invariant of 10_state.md R25(a), as a fact about FILLING. -/
theorem State.inv_iff : s.inv = true ↔ (s.fstate = .filling →
    isRegistered s.registered s.activeId = true ∧
      ∃ k S, s.activeSlot? = some (k, S) ∧ S.header = Config.header ∧ S.id = s.activeId) := by
  unfold State.inv
  cases s.fstate with
  | clear | seekId => simp
  | filling => rcases s.activeSlot? with _ | ⟨k, S⟩ <;> simp

theorem State.inv_of_not_filling (h : s.fstate ≠ .filling) : s.inv = true :=
  State.inv_iff.mpr fun hf => absurd hf h

/-- Under the invariant FILLING has an active slot. -/
theorem State.activeSlot?_of_inv (hi : s.inv = true) (hf : s.fstate = .filling) :
    ∃ k S, s.activeSlot? = some (k, S) := by
  obtain ⟨-, k, S, hS, -⟩ := State.inv_iff.mp hi hf
  exact ⟨k, S, hS⟩

/-- The outputs and VALIDATE have no part in the invariant. -/
theorem State.quiet_cfgWritten_inv (s : State) (r : InputRecord) : (s.quiet.cfgWritten r).inv = s.inv := rfl

theorem stepOn_keeps_inv (hi : s.inv = true) (h : stepOn r s = .next t) : t.inv = true := by
  cases stepOn_kind h with
  | idle | noise => rwa [State.quiet_cfgWritten_inv]
  | id hr hv hf hb hk hlt ho =>
    exact State.inv_iff.mpr fun _ => ⟨by simpa using hb, _, _, State.activeSlot?_of_id (s := s.quiet) hk ho _,
      rfl, rfl⟩
  | payload hr hv hf hS hn =>
    obtain ⟨hreg, k, S, hS', hheader, hid⟩ := State.inv_iff.mp hi hf
    rw [hS] at hS'
    cases hS'
    exact State.inv_iff.mpr fun _ => ⟨by simpa using hreg, _, _, State.setSlot_activeSlot? (s := s.quiet) hS _,
      hheader, hid.trans (by simp)⟩
  | absentPayload hr hv hf hS =>
    obtain ⟨k, S, hS'⟩ := State.activeSlot?_of_inv hi hf
    simp [hS] at hS'
  | reset | header | reject | checksum | absentChecksum => exact State.inv_of_not_filling (by simp)

/-- At most one slot is mid-frame: the one ACTIVE_ID selects (10_state.md R25(b)). -/
theorem State.midFrame_unique {j k : Nat} (hj : s.midFrame j) (hk : s.midFrame k) : j = k := by
  obtain ⟨-, S, hS⟩ := hj
  obtain ⟨-, T, hT⟩ := hk
  rw [hS] at hT
  cases hT
  rfl

/-- Settles O8: (a) by the kinds of step, (b) because ACTIVE_ID selects one slot. -/
theorem stepKeepsTheInvariant : Obligations.StepKeepsTheInvariant := by
  intro s t hi h
  exact ⟨stepOn_keeps_inv (s := s.rest) hi (stepOn_of_step h), fun j k => State.midFrame_unique,
    fun k hf hm => hf hm.1⟩

/-- Settles O7: at reset the framer is in CLEAR. -/
theorem invariantHoldsAtReset : Obligations.InvariantHoldsAtReset :=
  State.inv_of_not_filling (s := State.reset) (by decide)

/-! ### Totality -/

/-- Every list of records runs to its end, one output record a step, and keeps the invariant. -/
theorem drive_total (rs : List InputRecord) (s : State) :
    ∃ t os, drive rs s = some (t, os) ∧ os.length = rs.length ∧ (s.inv = true → t.inv = true) := by
  induction rs generalizing s with
  | nil => exact ⟨s, [], rfl, rfl, id⟩
  | cons r rs ih =>
    have hr := stepOn_eq_refStep r s
    obtain ⟨t, os, ht, hlen, hinv⟩ := ih (refStep s r)
    refine ⟨t, (refStep s r).out :: os, ?run, by simp [hlen], fun hi => hinv (stepOn_keeps_inv hi hr)⟩
    case run => rw [drive_cons_next hr, ht]; rfl

/-- Settles O9: a step is a step of the pseudocode, which is total, and a run is one step after another. -/
theorem noInputSequenceStopsTheBlock : Obligations.NoInputSequenceStopsTheBlock :=
  ⟨fun s => ⟨_, stepIsThePseudocode s⟩, drive_total⟩

/-- Settles O10: without a slot both kinds of byte in FILLING run on the contents read and only draw. -/
theorem withoutASlotTheFrameIsFree : Obligations.WithoutASlotTheFrameIsFree := by
  rintro s b S hf hS rfl
  refine ⟨fun hn => ?payload, fun h8 => ⟨eventOutputs s.active b s.validate, ?checksum, rfl, rfl⟩⟩
  case payload =>
    rw [stepOn_payload_active rfl rfl hf hn, State.putActive_absent (s := s.quiet) hS]
    rfl
  case checksum =>
    rw [stepOn_checksum_active rfl rfl hf h8, State.drawIfAbsent_absent hS]
    rfl

/-! ### The writers of VALIDATE and ACTIVE_ID -/

theorem stepOn_validate (h : stepOn r s = .next t) :
    t.validate = (if r.rst then false else if r.cfgWe then r.cfgValidate else s.validate) := by
  rw [stepOn_eq_refStep] at h
  cases h
  unfold refStep
  split <;> rfl

/-- Settles O11: the step of the pseudocode writes VALIDATE in these two places. -/
theorem validateHasTwoWriters : Obligations.ValidateHasTwoWriters :=
  fun s _ h => stepOn_validate (s := s.rest) (stepOn_of_step h)

/-- A step that changes ACTIVE_ID accepts an id byte. -/
theorem stepOn_activeId (h : stepOn r s = .next t) (hne : t.activeId ≠ s.activeId) :
    s.fstate = .seekId ∧ t.fstate = .filling ∧ r.rst = false ∧ r.inValid = true ∧
      isRegistered s.registered r.inByte = true ∧ t.activeId = r.inByte := by
  cases stepOn_kind h with
  | id hr hv hf hb => exact ⟨hf, rfl, hr, hv, hb, rfl⟩
  | _ => exact absurd (by simp) hne

/-- Settles O12: of the kinds of step only the accepted id byte writes ACTIVE_ID. -/
theorem activeIdIsWrittenOnlyByTheIdByte : Obligations.ActiveIdIsWrittenOnlyByTheIdByte :=
  fun s _ h => stepOn_activeId (s := s.rest) (stepOn_of_step h)

/-! ### The slots and the parameters -/

theorem stepOn_registered (h : stepOn r s = .next t) : t.registered = s.registered := by
  cases stepOn_kind h <;> simp

theorem stepOn_slotCount (h : stepOn r s = .next t) : t.slotCount = s.slotCount := by
  cases stepOn_kind h with
  | absentPayload | absentChecksum => rfl
  | _ => simp

/-- A step that changes slot `j` accepts the id byte of slot `j` or stores a payload byte in it while it is active. -/
theorem stepOn_slot? {j : Nat} (h : stepOn r s = .next t) (hne : t.slot? j ≠ s.slot? j) :
    r.rst = false ∧ r.inValid = true ∧
      ((s.fstate = .seekId ∧ isRegistered s.registered r.inByte = true ∧ slotIndex r.inByte = some j) ∨
       (s.fstate = .filling ∧ ∃ S, s.activeSlot? = some (j, S) ∧ S.fill.val < 8)) := by
  cases stepOn_kind h with
  | @id k old hr hv hf hb hk hlt ho =>
    obtain rfl : j = k := by_contra fun hjk => hne (State.setSlot_slot?_other s.quiet _ hjk)
    exact ⟨hr, hv, .inl ⟨hf, hb, hk⟩⟩
  | @payload k S hr hv hf hS hn =>
    obtain rfl : j = k := by_contra fun hjk => hne (State.setSlot_slot?_other s.quiet _ hjk)
    exact ⟨hr, hv, .inr ⟨hf, S, hS, hn⟩⟩
  | _ => exact absurd rfl hne

/-- Under the invariant the active slot of FILLING is one of slots 0..10. -/
theorem State.activeSlot?_lt_of_inv {k : Nat} {S : Slot} (hi : s.inv = true) (hf : s.fstate = .filling)
    (hS : s.activeSlot? = some (k, S)) : k < 11 := by
  obtain ⟨hreg, -⟩ := State.inv_iff.mp hi hf
  obtain ⟨hk, hlt⟩ := isRegistered_slotIndex_sub hreg
  obtain ⟨hk', -⟩ := State.activeSlot?_eq_some.mp hS
  rw [hk] at hk'
  cases hk'
  exact hlt

theorem stepOn_slot?_reserved {j : Nat} (h : stepOn r s = .next t) (hi : s.inv = true) (hj : 11 ≤ j) :
    t.slot? j = s.slot? j := by
  by_contra hne
  obtain ⟨-, -, ⟨-, hb, hk⟩ | ⟨hf, S, hS, -⟩⟩ := stepOn_slot? h hne
  · obtain ⟨k, hlt, hk'⟩ := isRegistered_slotIndex hb
    rw [hk] at hk'
    cases hk'
    omega
  · have := State.activeSlot?_lt_of_inv hi hf hS
    omega

/-- Settles O13: only an accepted id byte and a payload byte write a slot, and both select one of slots 0..10. -/
theorem onlyTheSelectedSlotChanges : Obligations.OnlyTheSelectedSlotChanges := by
  intro s t h
  have h := stepOn_of_step h
  exact ⟨stepOn_registered (s := s.rest) h, stepOn_slotCount (s := s.rest) h,
    fun j hj => stepOn_slot? (s := s.rest) h hj, fun hi j hj => stepOn_slot?_reserved (s := s.rest) h hi hj⟩

/-! ### The output ports -/

/-- Record `r` brings the checksum byte of a frame in progress in state `s`. -/
def State.takesChecksum (s : State) (r : InputRecord) : Prop :=
  r.rst = false ∧ r.inValid = true ∧ s.fstate = .filling ∧ s.active.fill = 8

/-- The outputs of a step: those of the event of a checksum byte, or none. -/
theorem stepOn_out (h : stepOn r s = .next t) :
    (s.takesChecksum r ∧ t.out = eventOutputs s.active r.inByte s.validate) ∨
    (¬ s.takesChecksum r ∧ t.out = Outputs.quiet) := by
  by_cases hc : s.takesChecksum r
  · obtain ⟨hr, hv, hf, h8⟩ := hc
    rw [stepOn_checksum_active hr hv hf h8] at h
    cases h
    exact .inl ⟨⟨hr, hv, hf, h8⟩, rfl⟩
  · refine .inr ⟨hc, ?_⟩
    cases stepOn_kind h with
    | checksum hr hv hf hS h8 => exact absurd ⟨hr, hv, hf, State.active_eq hS ▸ h8⟩ hc
    | absentChecksum hr hv hf hS h8 => exact absurd ⟨hr, hv, hf, State.active_absent hS ▸ h8⟩ hc
    | payload | id => simp
    | _ => rfl

theorem State.position_eq_checksum : (∃ id, s.position = .filling 8 id) ↔ s.fstate = .filling ∧ s.active.fill = 8 := by
  rcases State.position_cases s with ⟨hf, hp⟩ | ⟨hf, hp⟩ | ⟨hf, hp⟩ <;> simp [hf, hp]

/-- Settles O14: a checksum byte has its event, and every other step has none. -/
theorem eventExactlyAtTheChecksumByte : Obligations.EventExactlyAtTheChecksumByte := by
  intro s t h
  rw [State.position_eq_checksum]
  rcases stepOn_out (stepOn_of_step h) with ⟨hc, ho⟩ | ⟨hc, ho⟩
  · exact iff_of_true (by rw [ho]; rfl) hc
  · exact iff_of_false (by simp [ho]) hc

/-- Settles O15: the outputs are quiet or those of one event. -/
theorem portsAreAllDrivenOrAllQuiet : Obligations.PortsAreAllDrivenOrAllQuiet := by
  intro s t h
  rcases stepOn_out (stepOn_of_step h) with ⟨-, ho⟩ | ⟨-, ho⟩
  · refine .inr ⟨_, _, by rw [ho]; rfl, by rw [ho]; rfl, ?_⟩
    rw [ho]
    exact ⟨congrArg some (deliverOf_eq_decide _ _), rfl, rfl, rfl, rfl⟩
  · exact .inl ho

end Sys2Proof.Machine
end

section
/-! PROOFS. Rows and records one at a time: reset, idle and VALIDATE writes (70_reset_and_hazards.md R220, 40_framer.md
R115, 41_checksum.md R139), the emission and the delivery filter (40_framer.md R107, R109, R114; 41_checksum.md R131,
R138), the lanes of the packet ids (42_decoder.md R155, R160 to R170), and the refusals (log 11, 12). -/

namespace Sys2Proof.Machine

/-! ### Control records -/

/-- Settles O25: RESET is selected alone by rst = 1, and its row is the whole effect. -/
theorem resetWinsAndClears : Obligations.ResetWinsAndClears :=
  ⟨fun _ => rfl, fun _ _ hr => stepOn_reset hr⟩

/-- Settles O26: without reset and byte a step runs IDLE and then the VALIDATE write. -/
theorem idleStepKeepsTheFramer : Obligations.IdleStepKeepsTheFramer :=
  ⟨fun _ => rfl, fun _ _ hr hv => stepOn_idle hr hv⟩

/-- A VALIDATE write added to a record without one changes VALIDATE of the pseudocode's step and nothing else. -/
theorem refStep_with_validateWrite {s : State} {r : InputRecord} (hr : r.rst = false) (v : Bool) :
    refStep s { r with cfgWe := true, cfgValidate := v } = { refStep s r with validate := v } := by
  simp [refStep, hr]

/-- Settles O27: read off the pseudocode, where the write is the last thing a step without reset does. -/
theorem validateWriteChangesOnlyValidate : Obligations.ValidateWriteChangesOnlyValidate := by
  refine ⟨fun _ _ => rfl, fun s t r _ hr h v => ?write, fun s r v hr => ⟨_, stepOn_reset hr, rfl⟩⟩
  case write =>
    rw [stepOn_eq_refStep] at h ⊢
    cases h
    rw [refStep_with_validateWrite hr]

/-- Settles O55: reset clears what can be seen, and outside FILLING nothing else is compared. -/
theorem oneResetStepReachesTheResetState : Obligations.OneResetStepReachesTheResetState :=
  fun _ => ⟨_, stepOn_reset rfl, rfl, rfl, rfl, rfl, rfl, fun hf => nomatch hf⟩

/-! ### Emission, comparison and delivery -/

theorem execT6ChecksumEmit_of_filling {s : State} {b : Byte} {k : Nat} {S : Slot} (hf : s.fstate = .filling)
    (hS : s.activeSlot? = some (k, S)) (h8 : S.fill = 8) :
    execT6ChecksumEmit b s = .next (s.setOut { s.out with
      packet := some { header := S.header, id := S.id, payload := packPayload S.payload, checksum := b }
      pktOk := some (compareOk S.checksum b) }) := by
  rw [execT6ChecksumEmit, State.withActiveSlot_eq hf, State.active_eq hS, if_pos h8]

/-- Settles O22: the row reads the active slot and drives two ports. -/
theorem checksumByteEmitsTheSlot : Obligations.ChecksumByteEmitsTheSlot :=
  fun _ _ _ _ hf hS h8 => execT6ChecksumEmit_of_filling hf hS h8

/-- Settles O24: both kinds of byte in FILLING, by the fill of the active slot. -/
theorem noByteInterruptsAFrame : Obligations.NoByteInterruptsAFrame := by
  intro s b k S hf hS
  by_cases hn : S.fill.val < 8
  · have hne : S.fill ≠ 8 := fun h8 => by simp [h8] at hn
    refine ⟨_, S.push b hn, stepOn_payload rfl rfl hf hS hn, State.setSlot_activeSlot? (s := s.quiet) hS _, by simp,
      fun _ => ⟨by simpa using hf, by simp, rfl, Slot.push_payload S b hn⟩, fun h8 => absurd h8 hne⟩
  · have h8 := Slot.fill_eq_eight hn
    exact ⟨_, S, stepOn_checksum rfl rfl hf hS h8, hS, rfl, fun h => absurd h hn, fun _ => ⟨rfl, rfl, rfl⟩⟩

/-- Settles O30: with a computed checksum the row drives `pkt_ok` and nothing else. -/
theorem compareIsExactEquality : Obligations.CompareIsExactEquality := by
  intro s c b hc
  show execChecksumCompare b s = _
  rw [execChecksumCompare, hc]
  rfl

theorem execDeliver_of_event {s : State} {p : RawPacket} {ok : Bool} (hp : s.out.packet = some p)
    (hok : s.out.pktOk = some ok) :
    execDeliver s = .next (s.setOut { s.out with pktDeliver := some (deliverOf s.validate ok) }) := by
  simp only [execDeliver, hp, hok]

/-- Settles O31: the row by its meaning, the step because its outputs are quiet or those of one event. -/
theorem deliverFiltersOnlyBadPackets : Obligations.DeliverFiltersOnlyBadPackets := by
  refine ⟨fun s p ok hp hok => ⟨deliverOf s.validate ok, execDeliver_of_event hp hok, ?row⟩, fun s t h => ?step⟩
  case row => rw [deliverOf_eq_decide, decide_eq_true_iff]
  case step =>
    rcases stepOn_out (stepOn_of_step h) with ⟨-, ho⟩ | ⟨-, ho⟩
    · simp [ho, eventOutputs, deliverOf_eq_decide, State.rest]
    · simp [ho]

/-- Settles O32: the step of a checksum byte has its event, whatever the comparison gives. -/
theorem badFramesAreEmittedAndJudgedByTheOldValidate : Obligations.BadFramesAreEmittedAndJudgedByTheOldValidate := by
  intro s r k S hf hS h8 hr hv
  refine ⟨_, _, stepOn_checksum hr hv hf hS h8, rfl, rfl, ?ok, congrArg some (deliverOf_eq_decide _ _), rfl⟩
  case ok => rw [compareOk_eq_decide, decide_eq_true_iff, Slot.checksum]

/-! ### Without an event -/

/-- Settles O33: DELIVER and the views look for the packet first. -/
theorem withoutAnEventNothingIsDriven : Obligations.WithoutAnEventNothingIsDriven := by
  intro s hp i hi
  simp only [List.mem_cons, List.not_mem_nil, or_false] at hi
  rcases hi with rfl | rfl | rfl | rfl | rfl <;>
    simp only [exec, execDeliver, execViewU8, execViewI8, execViewI16, execViewI32, hp]

/-! ### Packet ids -/

/-- The lanes a packet kind gives a payload port (42_decoder.md R160 to R170). -/
def kindLanes : PacketId → PayloadBits → Lanes
  | .rtc, _ | .dataPortStatus, _ | .altimeter, _ | .gpsAccuracy, _ => .unassigned
  | .gpsGroundSpeed, _ => .unsupported
  | .acceleration, p | .angularVelocity, p => axesLanes p
  | .angles, p => .angles (cell16 p 0) (cell16 p 1) (cell16 p 2) (cell16 p 3)
  | .magnetometer, p => .fields (cell16 p 0) (cell16 p 1) (cell16 p 2) (cell16 p 3)
  | .gpsCoordinates, p => .coordinates (cell32 p 0) (cell32 p 1)
  | .orientation, p => .quaternion (cell16 p 0) (cell16 p 1) (cell16 p 2) (cell16 p 3)

/-- Every packet-id row is a reading of the event as the kind of that row. -/
theorem exec_idRow (k : PacketId) (s : State) : exec (Decode.idRow k) s = s.readAs k (kindLanes k) := by
  cases k <;> rfl

/-- An event read as its own kind gives that kind's lanes. -/
theorem exec_idRow_of_event {s : State} {p : RawPacket} (k : PacketId) (hp : s.out.packet = some p)
    (hid : p.id = idCode k) :
    exec (Decode.idRow k) s = .next (s.setOut { s.out with lanes := some (kindLanes k p.payload) }) := by
  simp only [exec_idRow, State.readAs, hp, if_pos hid]

/-- Settles O40: each row reads the event as its kind, with the cells its meaning names. -/
theorem statedLanes : Obligations.StatedLanes :=
  fun _ _ hp => ⟨exec_idRow_of_event .acceleration hp, exec_idRow_of_event .angles hp,
    exec_idRow_of_event .gpsCoordinates hp, exec_idRow_of_event .orientation hp⟩

/-- Settles O41: each row reads the event as its kind, with the cells its meaning names. -/
theorem derivedLanes : Obligations.DerivedLanes :=
  fun _ _ hp => ⟨exec_idRow_of_event .angularVelocity hp, exec_idRow_of_event .magnetometer hp⟩

/-- Settles O42: each row reads the event as its kind, with no cells. -/
theorem kindsWithoutLanes : Obligations.KindsWithoutLanes :=
  fun _ _ hp => ⟨exec_idRow_of_event .rtc hp, exec_idRow_of_event .dataPortStatus hp,
    exec_idRow_of_event .altimeter hp, exec_idRow_of_event .gpsGroundSpeed hp, exec_idRow_of_event .gpsAccuracy hp⟩

/-- Settles O43: every packet-id row first asks for an event of its kind. -/
theorem lanesUnderAnotherKindAreRefused : Obligations.LanesUnderAnotherKindAreRefused := by
  intro s k
  rw [exec_idRow, State.readAs]
  refine ⟨fun p hp hid => ?kind, fun hp => ?event⟩
  case kind => simp only [hp, if_neg hid]
  case event => simp only [hp]

theorem packetKind_eq_none_iff {b : Byte} : packetKind b = none ↔ (b.toNat < 0x50 ∨ 0x5A < b.toNat) := by
  constructor
  · intro h
    by_contra hb
    obtain ⟨n, rfl, hlo, hhi⟩ : ∃ n, b = BitVec.ofNat 8 n ∧ 0x50 ≤ n ∧ n ≤ 0x5A :=
      ⟨b.toNat, by simp, by omega, by omega⟩
    interval_cases n <;> exact absurd h (by decide)
  · intro hb
    cases hk : packetKind b with
    | none => rfl
    | some k =>
      obtain rfl := packetKind_eq_some hk
      cases k <;> simp [idCode] at hb

/-- Settles O44: the map by its names, and each byte by its distance from the id base. -/
theorem slotMapOfThePacketIds : Obligations.SlotMapOfThePacketIds := by
  refine ⟨packetKind_idCode, by decide, fun b => packetKind_eq_none_iff, fun b => ?index⟩
  case index =>
    have hbase : Config.idBase.toNat = 0x50 := rfl
    rw [slotIndex, hbase]
    by_cases hb : b.toNat < 0x50
    · rw [if_neg (Nat.not_le.mpr hb), if_pos hb]
    · rw [if_pos (Nat.not_lt.mp hb), if_neg hb]

/-! ### Refusals -/

theorem State.withActiveSlot_refused {s : State} (hf : s.fstate ≠ .filling)
    (f : Slot → Host.Outcome State Fault Refusal) : s.withActiveSlot f = .refused .rowNotSelected :=
  if_neg hf

/-- Outside FILLING the rows that read the active slot are refused. -/
theorem fillingRows_refused {s : State} (b : Byte) (hf : s.fstate ≠ .filling) :
    ∀ i ∈ [Instr.t5Payload b, .t6ChecksumState b, .t6ChecksumEmit b, .checksum],
      exec i s = .refused .rowNotSelected := by
  simp [exec, execT5Payload, execT6ChecksumState, execT6ChecksumEmit, execChecksum, State.withActiveSlot_refused hf]

theorem execT5Payload_refused {s : State} {b : Byte} (hf : s.fstate = .filling) (h8 : s.active.fill = 8) :
    execT5Payload b s = .refused .rowNotSelected := by
  rw [execT5Payload, State.withActiveSlot_eq hf, dif_neg (by rw [h8]; decide)]

section PayloadNotComplete
variable {s : State} (b : Byte) (hf : s.fstate = .filling) (hn : s.active.fill.val < 8)
include hf hn

theorem execT6ChecksumState_refused : execT6ChecksumState b s = .refused .rowNotSelected := by
  rw [execT6ChecksumState, State.withActiveSlot_eq hf, if_neg fun h8 => by rw [h8] at hn; exact absurd hn (by decide)]

theorem execT6ChecksumEmit_refused : execT6ChecksumEmit b s = .refused .rowNotSelected := by
  rw [execT6ChecksumEmit, State.withActiveSlot_eq hf, if_neg fun h8 => by rw [h8] at hn; exact absurd hn (by decide)]

end PayloadNotComplete

/-- Settles O23: each row's guard fails. -/
theorem rowsOutsideTheirConditionAreRefused : Obligations.RowsOutsideTheirConditionAreRefused := by
  intro s b
  refine ⟨fun hf => if_neg hf, fun h => if_neg ?noise, fun h => if_neg ?id, fun h => if_neg ?reject,
    fun hf => by simpa using fillingRows_refused b hf, fun hf h8 => execT5Payload_refused hf h8,
    fun hf hn => ⟨execT6ChecksumState_refused b hf hn, execT6ChecksumEmit_refused b hf hn⟩, fun hc => ?compare⟩
  case noise => rintro ⟨hf, hb⟩; exact h.elim (absurd hf) hb
  case id => rintro ⟨hf, hb⟩; exact h.elim (absurd hf) (by simp [hb])
  case reject => rintro ⟨hf, hb⟩; exact h.elim (absurd hf) (by simp [hb])
  case compare => simp only [exec, execChecksumCompare, hc]

/-! ### The reset values -/

/-- By default every id of 0x50..0x5A is registered, and no other byte (00_scope.md R6). -/
theorem isRegistered_default {b : Byte} :
    isRegistered Config.defaultRegistered b = true ↔ (0x50 ≤ b.toNat ∧ b.toNat ≤ 0x5A) := by
  constructor
  · intro h
    obtain ⟨k, hlt, hk⟩ := isRegistered_slotIndex h
    obtain ⟨hle, rfl⟩ := slotIndex_eq_some.mp hk
    omega
  · rintro ⟨hle, hge⟩
    have hk : slotIndex b = some (b.toNat - 0x50) := slotIndex_eq_some.mpr ⟨hle, rfl⟩
    have hlt : b.toNat - 0x50 < 11 := by omega
    simp [isRegistered, hk, hlt, Config.defaultRegistered]

/-- Settles O56: the fields by definition, the registered ids by their range. -/
theorem resetValuesOfTheSpec : Obligations.ResetValuesOfTheSpec :=
  ⟨rfl, rfl, rfl, rfl, fun _ => isRegistered_default⟩

end Sys2Proof.Machine
end

section
/-! PROOFS. The checksum's arithmetic (41_checksum.md R130, R132), the packing of the payload (10_state.md R30,
30_encoding.md R61), the int32 view (42_decoder.md R154) and the pseudo-frames (30_encoding.md R70). -/

namespace Sys2Proof.Machine

/-! ### The checksum -/

/-- Settles O28: the sum as a number, and the row that drives it. -/
theorem checksumIsTheSumMod256 : Obligations.ChecksumIsTheSumMod256 := by
  refine ⟨checksumOf_toNat, fun s k S hf hS => ?row⟩
  case row =>
    show execChecksum s = _
    rw [execChecksum, State.withActiveSlot_eq hf, State.active_eq hS]
    rfl

/-- The checksum of ten bytes is their sum in the ring of bytes. -/
theorem checksumTen_eq_sum (v : Vector Byte 10) : checksumTen v = ∑ i : Fin 10, v[i] := by
  simp only [Fin.sum_univ_succ, Fin.sum_univ_zero]
  simp [checksumTen, checksumOf, add_assoc]

theorem checksumTen_eq_list_sum (v : Vector Byte 10) : checksumTen v = v.toList.sum := by
  have hv : v.toList = List.ofFn fun i : Fin 10 => v[i] := 
    List.ext_getElem (by simp) fun i _ _ => by rw [List.getElem_ofFn]; rfl
  rw [checksumTen_eq_sum, hv, List.sum_ofFn]

/-- The difference of two checksums is the sum of the bytes' differences. -/
theorem checksumTen_sub (v w : Vector Byte 10) : checksumTen w - checksumTen v = ∑ i : Fin 10, (w[i] - v[i]) := by
  rw [checksumTen_eq_sum, checksumTen_eq_sum, Finset.sum_sub_distrib]

theorem checksumTen_sub_of_one_change {v w : Vector Byte 10} (i : Fin 10) (h : ∀ j : Fin 10, j ≠ i → v[j] = w[j]) :
    checksumTen w - checksumTen v = w[i] - v[i] := by
  rw [checksumTen_sub, Fintype.sum_eq_single i fun j hj => by rw [h j hj, sub_self]]

theorem checksumTen_sub_of_two_changes {v w : Vector Byte 10} {i j : Fin 10} (hij : i ≠ j)
    (h : ∀ m : Fin 10, m ≠ i → m ≠ j → v[m] = w[m]) :
    checksumTen w - checksumTen v = (w[i] - v[i]) + (w[j] - v[j]) := by
  rw [checksumTen_sub, Fintype.sum_eq_add i j hij fun m hm => by rw [h m hm.1 hm.2, sub_self]]

theorem compareOk_eq_true_iff {c b : Byte} : compareOk c b = true ↔ c = b := by
  rw [compareOk_eq_decide, decide_eq_true_iff]

theorem compareOk_eq_false_iff {c b : Byte} : compareOk c b = false ↔ c ≠ b := by
  rw [compareOk_eq_decide, decide_eq_false_iff_not]

/-- The last payload byte enters the checksum as a summand. -/
theorem checksumOf_set_last (h id : Byte) (p : Payload) (x : Byte) :
    checksumOf h id (p.set 7 x) = h + id + p[0] + p[1] + p[2] + p[3] + p[4] + p[5] + p[6] + x := by
  simp [checksumOf]

/-- Settles O29: the checksum is a sum in a commutative group. -/
theorem checksumLaws : Obligations.ChecksumLaws := by
  refine ⟨fun v w hp => ?order, fun v w c i hi hne hsame hok => ?oneByte, fun v c d hok hne => ?checksumByte,
    fun v w i j hi hj hij hsame hd => ?twoBytes, fun id p c => ?lastByte⟩
  case order => rw [checksumTen_eq_list_sum, checksumTen_eq_list_sum, hp.sum_eq]
  case oneByte =>
    rw [compareOk_eq_true_iff] at hok
    rw [compareOk_eq_false_iff]
    intro hbad
    have hdiff := checksumTen_sub_of_one_change (v := v) (w := w) ⟨i, hi⟩ fun j hj =>
      hsame j j.isLt fun h => hj (Fin.ext h)
    rw [hok, hbad, sub_self] at hdiff
    exact hne (sub_eq_zero.mp hdiff.symm).symm
  case checksumByte =>
    rw [compareOk_eq_true_iff] at hok
    rw [compareOk_eq_false_iff, hok]
    exact hne.symm
  case twoBytes =>
    have hdiff := checksumTen_sub_of_two_changes (v := v) (w := w) (i := ⟨i, hi⟩) (j := ⟨j, hj⟩)
      (fun h => hij (Fin.mk.inj h)) fun m hmi hmj =>
        hsame m m.isLt (fun h => hmi (Fin.ext h)) (fun h => hmj (Fin.ext h))
    exact (sub_eq_zero.mp (hdiff.trans hd)).symm
  case lastByte =>
    simp only [checksumOf_set_last]
    exact ⟨_, add_sub_cancel _ c, fun x hx => eq_sub_of_add_eq' hx⟩

/-! ### The payload port and the frame vector -/

theorem packPayload_viewU8Of (q : PayloadBits) : packPayload (viewU8Of q) = q := by
  apply BitVec.eq_of_toNat_eq
  rw [packPayload_toNat]
  simp [viewU8Of, payloadByte, BitVec.extractLsb'_toNat, Nat.shiftRight_eq_div_pow]
  omega

theorem frameVector_extract_payload (header id cs : Byte) (p : Payload) :
    (frameVector header id p cs).extractLsb' 16 64 = packPayload p := by
  apply BitVec.eq_of_toNat_eq
  simp only [BitVec.extractLsb'_toNat, frameVector, packPayload, append_byte_toNat, Nat.shiftRight_eq_div_pow]
  omega

/-- Settles O34: the bytes of the port are the payload's, and taking them apart is the inverse of packing. -/
theorem payloadPacking : Obligations.PayloadPacking :=
  ⟨payloadByte_packPayload, frameVector_extract_payload,
    fun q => ⟨viewU8Of q, packPayload_viewU8Of q, fun p hp => by rw [← hp, viewU8Of_packPayload]⟩⟩

/-! ### The int32 view -/

theorem execViewI32_of_event {s : State} {k : RawPacket} {p : Payload} (hk : s.out.packet = some k)
    (hp : k.payload = packPayload p) :
    execViewI32 s = .next (s.setOut { s.out with decI32 := some (viewI32Of (packPayload p)) }) := by
  simp only [execViewI32, hk, hp]

/-- Lane `j` of `dec_i32` is the int32 cell of payload bytes `4j` to `4j+3` (42_decoder.md R154, 20_memory.md R42). -/
theorem viewI32Of_packPayload_getElem (p : Payload) (j : Nat) (h : j < 2) :
    (viewI32Of (packPayload p))[j] = le32 p (4 * j) (by omega) := by
  simp only [viewI32Of_packPayload]
  match j, h with
  | 0, _ | 1, _ => rfl

/-- Settles O38: each lane is a little-endian cell of the payload, and `sext` reads it in two's complement. -/
theorem viewI32IsLittleEndian : Obligations.ViewI32IsLittleEndian := by
  intro s k p hk hp
  refine ⟨viewI32Of (packPayload p), execViewI32_of_event hk hp, fun j hj => ?lane⟩
  case lane => rw [viewI32Of_packPayload_getElem p j hj, sext_eq_signedValue, le32_toNat]

/-- An int32 cell is the int16 cell above it and the one below it (20_memory.md R43). -/
theorem cell32_toNat (p : PayloadBits) (j : Nat) :
    (cell32 p j).toNat = (cell16 p (2 * j + 1)).toNat * 65536 + (cell16 p (2 * j)).toNat := by
  simp only [cell32, cell16, BitVec.extractLsb'_toNat, Nat.shiftRight_eq_div_pow]
  have hlo : 16 * (2 * j) = 32 * j := by omega
  have hhi : 16 * (2 * j + 1) = 32 * j + 16 := by omega
  rw [hlo, hhi, Nat.pow_add, ← Nat.div_div_eq_div_mul]
  omega

/-- Settles O39: the lanes of the views are the cells. -/
theorem cellsOverlapAsHalves : Obligations.CellsOverlapAsHalves := by
  intro p j hj
  match j, hj with
  | 0, _ => exact cell32_toNat p 0
  | 1, _ => exact cell32_toNat p 1

/-! ### The pseudo-frames -/

/-- The two bytes of an int16 pattern, put together again. -/
theorem bytes_of_half (v : Half) : byteOf v 1 ++ byteOf v 0 = v := by
  apply BitVec.eq_of_toNat_eq
  simp only [append_byte_toNat, byteOf, BitVec.extractLsb'_toNat, Nat.shiftRight_eq_div_pow]
  omega

/-- The four bytes of an int32 pattern, put together again. -/
theorem bytes_of_word (v : Word) : byteOf v 3 ++ byteOf v 2 ++ byteOf v 1 ++ byteOf v 0 = v := by
  apply BitVec.eq_of_toNat_eq
  simp only [append_byte_toNat, byteOf, BitVec.extractLsb'_toNat, Nat.shiftRight_eq_div_pow]
  omega

/-- A value in the int16 range is read back from its pattern. -/
theorem sext_ofInt_half {c : Int} (h : -32768 ≤ c ∧ c ≤ 32767) : sext (BitVec.ofInt 16 c) = c := by
  rw [sext, BitVec.toInt_ofInt]
  exact Int.bmod_eq_of_le (by omega) (by omega)

/-- A value in the int32 range is read back from its pattern. -/
theorem sext_ofInt_word {d : Int} (h : -2147483648 ≤ d ∧ d ≤ 2147483647) : sext (BitVec.ofInt 32 d) = d := by
  rw [sext, BitVec.toInt_ofInt]
  exact Int.bmod_eq_of_le (by omega) (by omega)

theorem viewI16Of_payload16 (c0 c1 c2 c3 : Int) : viewI16Of (packPayload (payload16 c0 c1 c2 c3)) =
    #v[BitVec.ofInt 16 c0, BitVec.ofInt 16 c1, BitVec.ofInt 16 c2, BitVec.ofInt 16 c3] := by
  rw [viewI16Of_packPayload]
  simp [le16, payload16, bytes_of_half]

theorem viewI32Of_payload32 (d0 d1 : Int) : viewI32Of (packPayload (payload32 d0 d1)) =
    #v[BitVec.ofInt 32 d0, BitVec.ofInt 32 d1] := by
  rw [viewI32Of_packPayload]
  simp [le32, payload32, bytes_of_word]

/-- Settles O57: the cells hold the values' patterns, and a value in range is read back from its pattern. -/
theorem pseudoFramesCarryTheirValues : Obligations.PseudoFramesCarryTheirValues := by
  refine ⟨fun c0 c1 c2 c3 h => ?int16, fun d0 d1 h => ?int32⟩
  case int16 =>
    simp only [List.forall_mem_cons] at h
    obtain ⟨h0, h1, h2, h3, -⟩ := h
    simp [viewI16Of_payload16, sext_ofInt_half h0, sext_ofInt_half h1, sext_ofInt_half h2, sext_ofInt_half h3]
  case int32 =>
    simp only [List.forall_mem_cons] at h
    obtain ⟨h0, h1, -⟩ := h
    simp [viewI32Of_payload32, sext_ofInt_word h0, sext_ofInt_word h1]

end Sys2Proof.Machine
end

section
/-! PROOFS. The decoder and the encoder (30_encoding.md R63 to R69): what can be read back from the rows a record
selects, and that every row is selected at its own place. -/

namespace Sys2Proof.Machine

/-! ### The rows of a checksum byte -/

/-- A packet-id row is one of the table's last eleven, and takes no operand. -/
theorem mem_idRows {id : Byte} {i : Instr} (hi : i ∈ Decode.idRows id) : ∃ k, i = Decode.idRow k := by
  unfold Decode.idRows at hi
  split at hi
  · next k _ => exact ⟨k, List.mem_singleton.mp hi⟩
  · cases hi

theorem rowNumber_idRow (k : PacketId) : 17 ≤ (Decode.idRow k).rowNumber := by
  cases k <;> decide

theorem decode_byteRecord (reg : Registered) (p : Position) (b : Byte) :
    decode reg p (Decode.byteRecord b) = Decode.byteRows reg p b := by
  simp [decode, Decode.byteRecord, Decode.cfgRows]

/-! ### Each byte selects its row -/

section ByteRows
variable (reg : Registered) (b : Byte)

theorem byteRows_header : Decode.byteRows reg .clear Config.header = [.t1Header] := rfl

variable {b}

theorem byteRows_noise (hb : b ≠ Config.header) : Decode.byteRows reg .clear b = [.t2Noise b] := if_neg hb

variable {reg}

theorem byteRows_id (hb : isRegistered reg b = true) : Decode.byteRows reg .seekId b = [.t3Id b] := if_pos hb

theorem byteRows_reject (hb : isRegistered reg b = false) : Decode.byteRows reg .seekId b = [.t4Reject b] :=
  if_neg (by simp [hb])

theorem byteRows_payload {n : Fin 9} {id : Byte} (hn : n.val < 8) :
    Decode.byteRows reg (.filling n id) b = [.t5Payload b] := if_pos hn

theorem byteRows_checksum {n : Fin 9} {id : Byte} (hn : ¬ n.val < 8) :
    Decode.byteRows reg (.filling n id) b = Decode.checksumRows id b := if_neg hn

end ByteRows

/-- The input byte a row carries. -/
def rowByte? : Instr → Option Byte
  | .t1Header => some Config.header
  | .t2Noise b | .t3Id b | .t4Reject b | .t5Payload b | .t6ChecksumState b | .t6ChecksumEmit b
  | .checksumCompare b => some b
  | _ => none

/-- The VALIDATE bit a row carries. -/
def rowValidate? : Instr → Option Bool
  | .validateWrite v => some v
  | _ => none

/-- A byte selects one row, which carries it under its condition, or the rows of a checksum byte. -/
theorem byteRows_cases (reg : Registered) (p : Position) (b : Byte) :
    (∃ i : Instr, Decode.byteRows reg p b = [i] ∧ i.wf reg = true ∧ rowByte? i = some b ∧ rowValidate? i = none ∧
      i ≠ .reset) ∨
    ∃ id, Decode.byteRows reg p b = Decode.checksumRows id b := by
  cases p with
  | clear =>
    by_cases hb : b = Config.header
    · exact .inl ⟨.t1Header, by rw [hb]; rfl, rfl, by rw [hb]; rfl, rfl, by decide⟩
    · exact .inl ⟨.t2Noise b, byteRows_noise reg hb, by simpa [Instr.wf] using hb, rfl, rfl, by simp⟩
  | seekId =>
    cases hb : isRegistered reg b with
    | true => exact .inl ⟨.t3Id b, byteRows_id hb, hb, rfl, rfl, by simp⟩
    | false => exact .inl ⟨.t4Reject b, byteRows_reject hb, by simp [Instr.wf, hb], rfl, rfl, by simp⟩
  | filling n id =>
    by_cases hn : n.val < 8
    · exact .inl ⟨.t5Payload b, byteRows_payload hn, rfl, rfl, rfl, by simp⟩
    · exact .inr ⟨id, byteRows_checksum hn⟩

/-- The rows of a checksum byte: nine of its own, each without a condition, and at most one packet-id row. -/
theorem mem_checksumRows {id b : Byte} {i : Instr} (hi : i ∈ Decode.checksumRows id b) :
    (∀ reg, i.wf reg = true) ∧ rowValidate? i = none ∧ i ≠ .reset := by
  rcases List.mem_append.mp hi with hi | hi
  · simp only [List.mem_cons, List.not_mem_nil, or_false] at hi
    rcases hi with rfl | rfl | rfl | rfl | rfl | rfl | rfl | rfl | rfl <;> exact ⟨fun _ => rfl, rfl, by simp⟩
  · obtain ⟨k, rfl⟩ := mem_idRows hi
    cases k <;> exact ⟨fun _ => rfl, rfl, by decide⟩

/-- Every row a byte selects meets the condition 30_encoding.md R63 puts on its operand. -/
theorem wf_of_mem_byteRows {reg : Registered} {p : Position} {b : Byte} {i : Instr}
    (hi : i ∈ Decode.byteRows reg p b) : i.wf reg = true := by
  obtain ⟨j, hrows, hwf, -⟩ | ⟨id, hrows⟩ := byteRows_cases reg p b <;> rw [hrows] at hi
  · rwa [List.mem_singleton.mp hi]
  · obtain ⟨hwf, -⟩ := mem_checksumRows hi
    exact hwf reg

/-- Of the rows of a checksum byte two are framer rows (30_encoding.md R63, row T6). -/
theorem checksumRows_framerRows (id b : Byte) :
    (Decode.checksumRows id b).filter (fun i => i.rowNumber < 7) = [.t6ChecksumEmit b, .t6ChecksumState b] := by
  have hids : (Decode.idRows id).filter (fun i => decide (i.rowNumber < 7)) = [] := by
    refine List.filter_eq_nil_iff.mpr fun i hi => ?_
    obtain ⟨k, rfl⟩ := mem_idRows hi
    have := rowNumber_idRow k
    simp only [decide_eq_true_iff]
    omega
  rw [Decode.checksumRows, List.filter_append, hids]
  rfl

/-- Settles O3: the rows of each position, and the condition each meets. -/
theorem everyByteSelectsItsTableRow : Obligations.EveryByteSelectsItsTableRow := by
  intro reg p b
  simp only [decode_byteRecord]
  refine ⟨fun i => wf_of_mem_byteRows, ?header, ?noise, ?id, ?reject, ?payload, ?checksum⟩
  case header => rintro rfl rfl; exact byteRows_header reg
  case noise => rintro rfl hb; exact byteRows_noise reg hb
  case id => rintro rfl hb; exact byteRows_id hb
  case reject => rintro rfl hb; exact byteRows_reject hb
  case payload => rintro n id rfl hn; exact byteRows_payload hn
  case checksum => rintro id rfl; exact checksumRows_framerRows id b

/-! ### Encoding and decoding -/

/-- Settles O1: the rows with a condition by their operand, every other row by the rows of its place. -/
theorem encodeThenDecodeSelectsTheRow : Obligations.EncodeThenDecodeSelectsTheRow := by
  intro reg i hwf
  cases i with
  | t2Noise b =>
    have hb : b ≠ Config.header := by simpa [Instr.wf] using hwf
    simp only [encode, decode_byteRecord, byteRows_noise reg hb]
    rfl
  | t3Id b => simp only [encode, decode_byteRecord, byteRows_id (show isRegistered reg b = true from hwf)]; rfl
  | t4Reject b =>
    have hb : isRegistered reg b = false := by simpa [Instr.wf] using hwf
    simp only [encode, decode_byteRecord, byteRows_reject hb]
    rfl
  | _ => rfl

/-! ### What can be read back from the selected rows -/

theorem byteRows_rowByte? (reg : Registered) (p : Position) (b : Byte) :
    (Decode.byteRows reg p b).findSome? rowByte? = some b := by
  obtain ⟨i, hrows, -, hb, -⟩ | ⟨id, hrows⟩ := byteRows_cases reg p b
  · rw [hrows, List.findSome?_singleton, hb]
  · rw [hrows]; rfl

theorem byteRows_rowValidate? (reg : Registered) (p : Position) (b : Byte) :
    (Decode.byteRows reg p b).findSome? rowValidate? = none := by
  obtain ⟨i, hrows, -, -, hv, -⟩ | ⟨id, hrows⟩ := byteRows_cases reg p b
  · rw [hrows, List.findSome?_singleton, hv]
  · rw [hrows]
    refine List.findSome?_eq_none_iff.mpr fun i hi => ?_
    obtain ⟨-, hv, -⟩ := mem_checksumRows hi
    exact hv

theorem reset_notMem_byteRows (reg : Registered) (p : Position) (b : Byte) : .reset ∉ Decode.byteRows reg p b := by
  obtain ⟨i, hrows, -, -, -, hi⟩ | ⟨id, hrows⟩ := byteRows_cases reg p b <;> rw [hrows]
  · exact fun h => hi (List.mem_singleton.mp h).symm
  · intro h
    obtain ⟨-, -, hne⟩ := mem_checksumRows h
    exact hne rfl

section ReadBack
variable (reg : Registered) (p : Position) (r : InputRecord)

theorem cfgRows_rowValidate? :
    (Decode.cfgRows r).findSome? rowValidate? = if r.cfgWe then some r.cfgValidate else none := by
  unfold Decode.cfgRows
  split <;> rfl

theorem cfgRows_rowByte? : (Decode.cfgRows r).findSome? rowByte? = none := by
  unfold Decode.cfgRows
  split <;> rfl

theorem reset_notMem_cfgRows : .reset ∉ Decode.cfgRows r := by
  unfold Decode.cfgRows
  split <;> simp

/-- RESET is among the selected rows exactly with rst = 1. -/
theorem reset_mem_decode : .reset ∈ decode reg p r ↔ r.rst = true := by
  unfold decode
  cases r.rst <;> cases r.inValid <;> simp [reset_notMem_byteRows, reset_notMem_cfgRows]

/-- The input byte is read back from the rows of a byte step. -/
theorem decode_rowByte? (hr : r.rst = false) :
    (decode reg p r).findSome? rowByte? = if r.inValid then some r.inByte else none := by
  unfold decode
  cases hv : r.inValid with
  | true => simp [hr, List.findSome?_append, byteRows_rowByte?]
  | false => simpa [hr, rowByte?] using cfgRows_rowByte? r

/-- The VALIDATE write is read back from the rows of a step without reset. -/
theorem decode_rowValidate? (hr : r.rst = false) :
    (decode reg p r).findSome? rowValidate? = if r.cfgWe then some r.cfgValidate else none := by
  unfold decode
  rw [← cfgRows_rowValidate?]
  cases hv : r.inValid with
  | true => simp [hr, List.findSome?_append, byteRows_rowValidate?]
  | false => simp [hr, List.findSome?_cons, rowValidate?]

end ReadBack

/-- Two guarded values are equal exactly when the guards are, and under them the values. -/
theorem ite_some_eq_ite_some {α : Type} {c d : Bool} {x y : α}
    (h : (if c then some x else none) = (if d then some y else none)) : c = d ∧ (c = true → x = y) := by
  cases c <;> cases d <;> simp_all

/-- Settles O2: everything a step looks at is read back from the rows. -/
theorem decodingDropsNoBit : Obligations.DecodingDropsNoBit := by
  intro reg p r q h
  have hrst : r.rst = q.rst := by
    rw [Bool.eq_iff_iff, ← reset_mem_decode reg p, ← reset_mem_decode reg p, h]
  refine ⟨hrst, fun hr => ?_⟩
  have hq : q.rst = false := hrst ▸ hr
  have hbyte : (if r.inValid then some r.inByte else none) = (if q.inValid then some q.inByte else none) := by
    rw [← decode_rowByte? reg p r hr, ← decode_rowByte? reg p q hq, h]
  have hcfg : (if r.cfgWe then some r.cfgValidate else none) = (if q.cfgWe then some q.cfgValidate else none) := by
    rw [← decode_rowValidate? reg p r hr, ← decode_rowValidate? reg p q hq, h]
  obtain ⟨hv, hb⟩ := ite_some_eq_ite_some hbyte
  obtain ⟨hwe, hval⟩ := ite_some_eq_ite_some hcfg
  exact ⟨hv, hb, hwe, hval⟩

/-- Settles O4: eight closed words. -/
theorem wordsDecodeAsTheTableSays : Obligations.WordsDecodeAsTheTableSays := by
  unfold Obligations.WordsDecodeAsTheTableSays
  decide

end Sys2Proof.Machine
end

section
/-! PROOFS. Runs of the block (40_framer.md R110 to R119, 70_reset_and_hazards.md R227): how runs and feeds compose, that
idle records do not matter, what a feed does to a frame in progress, and from these the statements about whole streams. -/

namespace Sys2Proof.Machine

variable {s t u : State}

/-! ### Composing runs -/

theorem drive_append {rs ps : List InputRecord} {os qs : List Outputs} (h₁ : drive rs s = some (t, os))
    (h₂ : drive ps t = some (u, qs)) : drive (rs ++ ps) s = some (u, os ++ qs) := by
  induction rs generalizing s os with
  | nil => cases h₁; exact h₂
  | cons r rs ih =>
    obtain ⟨t₁, os', hr, hrs, rfl⟩ := drive_cons_eq_some h₁
    rw [List.cons_append, drive_cons_next hr, ih hrs]
    rfl

theorem feed_eq_some {bs : List Byte} {es : List Event} :
    feed bs s = some (t, es) ↔ ∃ os, drive (bs.map Decode.byteRecord) s = some (t, os) ∧ eventsOf os = es := by
  simp [feed, Option.map_eq_some_iff]

theorem feed_append {bs cs : List Byte} {es fs : List Event} (h₁ : feed bs s = some (t, es))
    (h₂ : feed cs t = some (u, fs)) : feed (bs ++ cs) s = some (u, es ++ fs) := by
  obtain ⟨os, hbs, rfl⟩ := feed_eq_some.mp h₁
  obtain ⟨qs, hcs, rfl⟩ := feed_eq_some.mp h₂
  exact feed_eq_some.mpr ⟨os ++ qs, by rw [List.map_append, drive_append hbs hcs], eventsOf_append os qs⟩

theorem feed_total (bs : List Byte) (s : State) : ∃ t es, feed bs s = some (t, es) := by
  obtain ⟨t, os, h, -⟩ := drive_total (bs.map Decode.byteRecord) s
  exact ⟨t, eventsOf os, feed_eq_some.mpr ⟨os, h, rfl⟩⟩

@[simp] theorem feed_nil (s : State) : feed [] s = some (s, []) := emptyFeedIsANoOp s

/-- One byte: its step, with the event of its outputs. -/
theorem feed_singleton {b : Byte} (h : stepOn (Decode.byteRecord b) s = .next t) :
    feed [b] s = some (t, t.out.event?.toList) := by
  refine feed_eq_some.mpr ⟨[t.out], drive_cons_next h, ?_⟩
  cases he : t.out.event? <;> simp [eventsOf, he]

/-- A byte that makes no event, and the bytes after it. -/
theorem feed_cons_quiet {b : Byte} {bs : List Byte} {es : List Event} (h : stepOn (Decode.byteRecord b) s = .next t)
    (ho : t.out = Outputs.quiet) (hbs : feed bs t = some (u, es)) : feed (b :: bs) s = some (u, es) := by
  have hb := feed_singleton h
  rw [ho] at hb
  exact feed_append hb hbs

/-- A feed taken apart: the first byte's step, and the feed of the others. -/
theorem feed_cons_eq_some {b : Byte} {bs : List Byte} {es : List Event} (h : feed (b :: bs) s = some (u, es)) :
    ∃ t fs, stepOn (Decode.byteRecord b) s = .next t ∧ feed bs t = some (u, fs) ∧
      es = t.out.event?.toList ++ fs := by
  have hb := stepOn_eq_refStep (Decode.byteRecord b) s
  obtain ⟨v, fs, hbs⟩ := feed_total bs (refStep s (Decode.byteRecord b))
  have hall := feed_append (feed_singleton hb) hbs
  rw [List.singleton_append, h] at hall
  cases hall
  exact ⟨_, fs, hb, hbs, rfl⟩

/-- Settles O46: by induction on the chunks, each a feed that answers. -/
theorem chunkingDoesNotMatter : Obligations.ChunkingDoesNotMatter := by
  intro cs s
  induction cs generalizing s with
  | nil => exact (feed_nil s).symm
  | cons c cs ih =>
    obtain ⟨t, es, hc⟩ := feed_total c s
    obtain ⟨u, fs, hcs⟩ := feed_total cs.flatten t
    rw [List.flatten_cons, feed_append hc hcs]
    simp only [feedChunks, hc, ih, hcs]
    rfl

/-! ### States that differ only in the ports of the last step -/

/-- States with the same quiet form differ only in the ports. -/
theorem State.eq_with_out (h : t.quiet = s.quiet) : t = { s with out := t.out } :=
  calc t = t.quiet.setOut t.out := rfl
    _ = s.quiet.setOut t.out := by rw [h]

/-- A step does not see the ports of the last one. -/
theorem stepOn_congr_quiet (r : InputRecord) (h : t.quiet = s.quiet) : stepOn r t = stepOn r s := by
  rw [State.eq_with_out h]
  rfl

theorem stepOn_idleRecord {r : InputRecord} (hr : isIdleRecord r = true) (s : State) : stepOn r s = .next s.quiet := by
  obtain ⟨⟨hrst, hv⟩, hwe⟩ : (r.rst = false ∧ r.inValid = false) ∧ r.cfgWe = false := by
    simpa [isIdleRecord] using hr
  rw [stepOn_idle hrst hv, State.cfgWritten, hwe]
  rfl

/-- Without its idle records a run makes the same events and ends in the same state, the ports apart. -/
theorem drive_filter_idle (rs : List InputRecord) {s s' : State} {os : List Outputs} (hq : s'.quiet = s.quiet)
    (h : drive rs s = some (t, os)) :
    ∃ u qs, drive (rs.filter fun r => !isIdleRecord r) s' = some (u, qs) ∧ eventsOf qs = eventsOf os ∧
      u.quiet = t.quiet := by
  induction rs generalizing s s' os with
  | nil => cases h; exact ⟨s', [], rfl, rfl, hq⟩
  | cons r rs ih =>
    obtain ⟨t₁, os', hr, hrs, rfl⟩ := drive_cons_eq_some h
    cases hi : isIdleRecord r with
    | true =>
      rw [stepOn_idleRecord hi] at hr
      cases hr
      obtain ⟨u, qs, hu, he, hout⟩ := ih (s := s.quiet) hq hrs
      exact ⟨u, qs, by simpa [hi] using hu, he, hout⟩
    | false =>
      obtain ⟨u, qs, hu, he, hout⟩ := ih rfl hrs
      refine ⟨u, t₁.out :: qs, ?_, ?_, hout⟩
      · rw [List.filter_cons_of_pos (by simp [hi]), drive_cons_next ((stepOn_congr_quiet r hq).trans hr), hu]
        rfl
      · rw [← List.singleton_append, eventsOf_append, he, ← eventsOf_append, List.singleton_append]

/-- Settles O47: by induction on the records; an idle step changes the ports only. -/
theorem idleRecordsDoNotMatter : Obligations.IdleRecordsDoNotMatter := by
  intro rs s t os h
  obtain ⟨u, qs, hu, he, hq⟩ := drive_filter_idle rs rfl h
  exact ⟨u, qs, hu, he, State.eq_with_out hq⟩

/-! ### Eleven bytes per event -/

theorem State.consumed_seekId (hf : s.fstate = .seekId) : s.consumed = 1 := by
  simp [State.consumed, hf]

theorem State.consumed_filling {k : Nat} {S : Slot} (hf : s.fstate = .filling) (hS : s.activeSlot? = some (k, S)) :
    s.consumed = 2 + S.fill.val := by
  simp [State.consumed, hf, State.active_eq hS]

@[simp] theorem Slot.push_fill (S : Slot) (b : Byte) (hn : S.fill.val < 8) :
    (S.push b hn).fill.val = S.fill.val + 1 := rfl

theorem consumed_le_of_quiet {m n : Nat} (ho : t.out = Outputs.quiet) (ht : t.consumed = m) (hs : s.consumed = n)
    (hmn : m ≤ 1 + n) : 11 * t.out.event?.toList.length + t.consumed ≤ 1 + s.consumed := by
  simpa [ho, ht, hs] using hmn

/-- A step adds at most one to the bytes of the current frame, and an event takes eleven away. -/
theorem stepOn_consumed {r : InputRecord} (hi : s.inv = true) (h : stepOn r s = .next t) :
    11 * t.out.event?.toList.length + t.consumed ≤ 1 + s.consumed := by
  cases stepOn_kind h with
  | reset | idle | header | noise | reject => exact consumed_le_of_quiet rfl rfl rfl (by simp [State.consumed, *])
  | id hr hv hf hb hk hlt ho =>
    have hA := State.activeSlot?_of_id (s := s.quiet) hk ho
    exact consumed_le_of_quiet (by simp) (State.consumed_filling rfl (hA _)) (State.consumed_seekId hf) (by simp)
  | payload hr hv hf hS hn =>
    have hA := State.setSlot_activeSlot? (s := s.quiet) hS
    exact consumed_le_of_quiet (by simp) (State.consumed_filling (by simpa using hf) (hA _))
      (State.consumed_filling hf hS) (by rw [Slot.push_fill]; omega)
  | checksum hr hv hf hS h8 =>
    rw [State.consumed_filling hf hS, h8]
    simp [State.consumed, eventOutputs, Outputs.event?]
  | absentPayload hr hv hf hS | absentChecksum hr hv hf hS =>
    obtain ⟨k, S, hS'⟩ := State.activeSlot?_of_inv hi hf
    simp [hS] at hS'

theorem feed_consumed (bs : List Byte) {es : List Event} (hi : s.inv = true) (h : feed bs s = some (t, es)) :
    11 * es.length + t.consumed ≤ bs.length + s.consumed := by
  induction bs generalizing s es with
  | nil => cases h; simp
  | cons b bs ih =>
    obtain ⟨u, fs, hb, hbs, rfl⟩ := feed_cons_eq_some h
    have hstep := stepOn_consumed hi hb
    have hrest := ih (stepOn_keeps_inv hi hb) hbs
    rw [List.length_append, List.length_cons]
    omega

/-- Settles O48: the count of consumed bytes, step by step. -/
theorem elevenBytesPerEvent : Obligations.ElevenBytesPerEvent := by
  intro bs s t es hi h
  have hcount := feed_consumed bs hi h
  exact ⟨by omega, hcount⟩

/-! ### The host's machine -/

section SetInputs
variable (s) (rs : List InputRecord)

theorem State.setInputs_setSlot (k : Nat) (v : Slot) :
    (s.setInputs rs).setSlot k v = (s.setSlot k v).setInputs rs := by
  rw [State.setSlot, State.setSlot]
  split <;> rfl

theorem State.setInputs_drawIfAbsent : (s.setInputs rs).drawIfAbsent = s.drawIfAbsent.setInputs rs := by
  rw [State.drawIfAbsent, State.drawIfAbsent, State.setInputs_activeSlot?]
  split <;> rfl

theorem State.setInputs_putActive (v : Slot) : (s.setInputs rs).putActive v = (s.putActive v).setInputs rs := by
  rw [State.putActive, State.putActive, State.setInputs_activeSlot?]
  split
  · exact State.setInputs_setSlot s rs _ v
  · exact State.setInputs_drawIfAbsent s rs

/-- The records still scheduled have no part in the step of another. -/
theorem refByteStep_setInputs (b : Byte) :
    refByteStep (s.setInputs rs) b = ((refByteStep s b).1.setInputs rs, (refByteStep s b).2) := by
  unfold refByteStep
  simp only [State.setInputs_fstate, State.setInputs_registered, State.setInputs_slot?, State.setInputs_active,
    State.setInputs_setSlot, State.setInputs_putActive, State.setInputs_drawIfAbsent]
  cases s.fstate with
  | clear => dsimp only; split <;> rfl
  | seekId =>
    dsimp only
    split
    · split <;> rfl
    · rfl
  | filling => dsimp only; split <;> rfl

theorem refStep_setInputs (r : InputRecord) : refStep (s.setInputs rs) r = (refStep s r).setInputs rs := by
  unfold refStep
  rw [refByteStep_setInputs]
  cases r.rst <;> cases r.inValid <;> rfl

end SetInputs

/-- A step of a state with scheduled records takes the first and leaves the others. -/
theorem step_scheduled (r : InputRecord) (rs : List InputRecord) (s : State) :
    step (s.setInputs (r :: rs)) = .next ((refStep s r).setInputs rs) := by
  rw [step_eq_stepOn, stepOn_eq_refStep, ← refStep_setInputs]
  rfl

theorem refStep_inputs (s : State) (r : InputRecord) : (refStep s r).inputs = s.inputs := by
  rw [← State.setInputs_inputs (refStep s r) s.inputs, ← refStep_setInputs]
  rfl

/-- Settles O58: by induction on the records, each step taking the first. -/
theorem coreRunsAsDriven : Obligations.CoreRunsAsDriven := by
  intro rs s t os h
  induction rs generalizing s os with
  | nil => cases h; rfl
  | cons r rs ih =>
    obtain ⟨u, os', hr, hrs, -⟩ := drive_cons_eq_some h
    rw [stepOn_eq_refStep] at hr
    cases hr
    have hrun := ih _ _ hrs
    rw [refStep_inputs] at hrun
    exact (run_succ_next (M := core) rs.length (step_scheduled r (rs ++ s.inputs) s)).trans hrun

end Sys2Proof.Machine
end

section
/-! PROOFS. Whole frames (40_framer.md R116 to R119, 70_reset_and_hazards.md R227): what feeds of noise, of payload bytes
and of a whole frame do, and the statements about streams put together from them. -/

namespace Sys2Proof.Machine

variable {s : State}

/-! ### Several payload bytes -/

/-- The contents of a slot after payload bytes `bs` (40_framer.md R105), as long as there is room. -/
def Slot.pushAll (S : Slot) : List Byte → Slot
  | [] => S
  | b :: bs => if hn : S.fill.val < 8 then (S.push b hn).pushAll bs else S

theorem Slot.pushAll_cons {S : Slot} {b : Byte} {bs : List Byte} (hn : S.fill.val < 8) :
    S.pushAll (b :: bs) = (S.push b hn).pushAll bs := dif_pos hn

/-- The slot's own header and id are kept, and every byte is counted. -/
theorem Slot.pushAll_fields (S : Slot) (bs : List Byte) (h : S.fill.val + bs.length ≤ 8) :
    (S.pushAll bs).header = S.header ∧ (S.pushAll bs).id = S.id ∧
      (S.pushAll bs).fill.val = S.fill.val + bs.length := by
  induction bs generalizing S with
  | nil => exact ⟨rfl, rfl, rfl⟩
  | cons b bs ih =>
    rw [List.length_cons] at h
    have hn : S.fill.val < 8 := by omega
    obtain ⟨hheader, hid, hfill⟩ := ih (S.push b hn) (by rw [Slot.push_fill]; omega)
    rw [Slot.pushAll_cons hn]
    exact ⟨hheader, hid, by rw [hfill, Slot.push_fill, List.length_cons]; omega⟩

/-- Byte `i` of the payload is the one received at that place, and the old one where none was. -/
theorem Slot.pushAll_payload (S : Slot) (bs : List Byte) (h : S.fill.val + bs.length ≤ 8) (i : Nat) (hi : i < 8) :
    (S.pushAll bs).payload[i] =
      if S.fill.val ≤ i then (bs[i - S.fill.val]?).getD S.payload[i] else S.payload[i] := by
  induction bs generalizing S with
  | nil => simp [Slot.pushAll]
  | cons b bs ih =>
    rw [List.length_cons] at h
    have hn : S.fill.val < 8 := by omega
    rw [Slot.pushAll_cons hn, ih (S.push b hn) (by rw [Slot.push_fill]; omega), Slot.push_payload, Slot.push_fill]
    rcases Nat.lt_trichotomy i S.fill.val with hlt | heq | hgt
    · rw [if_neg (by omega), if_neg (by omega), if_neg (by omega)]
    · rw [if_neg (by omega), if_pos heq, if_pos (by omega)]
      simp [heq]
    · have hsucc : i - S.fill.val = i - (S.fill.val + 1) + 1 := by omega
      rw [if_pos (by omega), if_neg (by omega), if_pos (by omega), hsucc, List.getElem?_cons_succ]

/-- Eight bytes into an empty slot are its payload. -/
theorem Slot.pushAll_full {S : Slot} (h0 : S.fill = 0) (p : Payload) :
    S.pushAll p.toList = { header := S.header, id := S.id, payload := p, fill := 8 } := by
  have hv : S.fill.val = 0 := by rw [h0]; rfl
  have hlen : S.fill.val + p.toList.length ≤ 8 := by simp [hv]
  obtain ⟨hheader, hid, hfill⟩ := S.pushAll_fields p.toList hlen
  have hpay : (S.pushAll p.toList).payload = p := by
    ext i hi
    rw [S.pushAll_payload p.toList hlen i hi, hv]
    simp [hi]
  have h8 : (S.pushAll p.toList).fill = 8 := Fin.ext (by rw [hfill, hv]; simp)
  cases hT : S.pushAll p.toList
  simp_all

/-! ### Feeds of bytes at one place of the framer -/

theorem State.fstate_of_quiet {t : State} (h : t.quiet = s.quiet) : t.fstate = s.fstate := by
  rw [← State.quiet_fstate, h, State.quiet_fstate]

theorem State.registered_of_quiet {t : State} (h : t.quiet = s.quiet) : t.registered = s.registered := by
  rw [← State.quiet_registered, h, State.quiet_registered]

/-- Noise makes no event and changes the ports only. -/
theorem feed_noise (bs : List Byte) (hf : s.fstate = .clear) (hb : (0x55 : Byte) ∉ bs) :
    ∃ t, feed bs s = some (t, []) ∧ t.quiet = s.quiet := by
  induction bs generalizing s with
  | nil => exact ⟨s, feed_nil s, rfl⟩
  | cons b bs ih =>
    obtain ⟨hne, hbs⟩ : (0x55 : Byte) ≠ b ∧ (0x55 : Byte) ∉ bs := by simpa using hb
    obtain ⟨t, ht, hq⟩ := ih (s := s.quiet) hf hbs
    exact ⟨t, feed_cons_quiet (stepOn_noise rfl rfl hf hne.symm) rfl ht, hq⟩

/-- Settles O50: noise, byte after byte. -/
theorem noiseIsAbsorbed : Obligations.NoiseIsAbsorbed := by
  intro bs s hf hb
  obtain ⟨t, ht, hq⟩ := feed_noise bs hf hb
  exact ⟨t, ht, State.eq_with_out hq⟩

/-- Payload bytes make no event and go to the active slot. -/
theorem feed_payload (bs : List Byte) {k : Nat} {S : Slot} (hf : s.fstate = .filling)
    (hS : s.activeSlot? = some (k, S)) (h : S.fill.val + bs.length ≤ 8) :
    ∃ t, feed bs s = some (t, []) ∧ t.fstate = .filling ∧ t.registered = s.registered ∧
      t.activeSlot? = some (k, S.pushAll bs) := by
  induction bs generalizing s S with
  | nil => exact ⟨s, feed_nil s, hf, rfl, hS⟩
  | cons b bs ih =>
    rw [List.length_cons] at h
    have hn : S.fill.val < 8 := by omega
    obtain ⟨t, ht, htf, hreg, hA⟩ := ih (s := s.quiet.setSlot k (S.push b hn)) (S := S.push b hn) (by simpa using hf)
      (State.setSlot_activeSlot? (s := s.quiet) hS _) (by rw [Slot.push_fill]; omega)
    rw [← Slot.pushAll_cons hn] at hA
    exact ⟨t, feed_cons_quiet (stepOn_payload rfl rfl hf hS hn) (by simp) ht, htf, by simpa using hreg, hA⟩

/-- The event of slot `S` with the received byte `b` (40_framer.md R107). -/
def Slot.event (S : Slot) (b : Byte) : Event :=
  { packet := { header := S.header, id := S.id, payload := packPayload S.payload, checksum := b }
    ok := compareOk S.checksum b }

/-- The checksum byte makes the one event of the frame, whatever it is. -/
theorem feed_checksum (b : Byte) {k : Nat} {S : Slot} (hf : s.fstate = .filling) (hS : s.activeSlot? = some (k, S))
    (h8 : S.fill = 8) :
    ∃ t, feed [b] s = some (t, [S.event b]) ∧ t.fstate = .clear ∧ t.registered = s.registered :=
  ⟨_, feed_singleton (stepOn_checksum rfl rfl hf hS h8), rfl, rfl⟩

/-- The rest of a frame in progress: its payload bytes and its checksum byte make one event. -/
theorem feed_frameRest (bs : List Byte) (b : Byte) {k : Nat} {S : Slot} (hf : s.fstate = .filling)
    (hS : s.activeSlot? = some (k, S)) (h : S.fill.val + bs.length = 8) :
    ∃ t, feed (bs ++ [b]) s = some (t, [(S.pushAll bs).event b]) ∧ t.fstate = .clear ∧
      t.registered = s.registered := by
  obtain ⟨t, ht, htf, htreg, hA⟩ := feed_payload bs hf hS h.le
  obtain ⟨-, -, hfill⟩ := S.pushAll_fields bs h.le
  obtain ⟨u, hu, huf, hureg⟩ := feed_checksum b htf hA (Fin.ext (hfill.trans h))
  exact ⟨u, feed_append ht hu, huf, hureg.trans htreg⟩

/-- A registered id byte makes no event and opens its slot; the bytes after it are fed to FILLING with fill 0. -/
theorem stepOn_opens {b : Byte} (hf : s.fstate = .seekId) (hb : isRegistered s.registered b = true) :
    ∃ t k S, stepOn (Decode.byteRecord b) s = .next t ∧ t.out = Outputs.quiet ∧ t.fstate = .filling ∧
      t.registered = s.registered ∧ t.activeSlot? = some (k, S) ∧ S.header = Config.header ∧ S.id = b ∧ S.fill = 0 := by
  obtain ⟨hk, hlt⟩ := isRegistered_slotIndex_sub hb
  have ho := State.slot?_of_lt s hlt
  exact ⟨_, _, _, stepOn_id rfl rfl hf hb hk ho, by simp, rfl, by simp,
    State.activeSlot?_of_id (s := s.quiet) hk ho _, rfl, rfl, rfl⟩

/-- After a header byte: the id, the payload and the checksum byte of a frame make its event. -/
theorem feed_afterHeader (f : Frame) (hf : s.fstate = .seekId) (hb : isRegistered s.registered f.id = true) :
    ∃ t, feed (f.id :: (f.payload.toList ++ [f.checksum])) s = some (t, [f.event]) ∧ t.fstate = .clear ∧
      t.registered = s.registered := by
  obtain ⟨t, k, S, hstep, ho, htf, htreg, hS, hheader, hid, h0⟩ := stepOn_opens hf hb
  obtain ⟨u, hu, huf, hureg⟩ := feed_frameRest f.payload.toList f.checksum htf hS (by simp [h0])
  rw [Slot.pushAll_full h0, hheader, hid] at hu
  exact ⟨u, feed_cons_quiet hstep ho hu, huf, hureg.trans htreg⟩

/-- A frame with a registered id, fed in CLEAR, makes its event and leads back to CLEAR. -/
theorem feed_frame (f : Frame) (hf : s.fstate = .clear) (hb : isRegistered s.registered f.id = true) :
    ∃ t, feed f.bytes s = some (t, [f.event]) ∧ t.fstate = .clear ∧ t.registered = s.registered := by
  obtain ⟨t, ht, htf, hreg⟩ := feed_afterHeader (s := s.quiet.setFState .seekId) f rfl hb
  exact ⟨t, feed_cons_quiet (stepOn_header rfl rfl hf rfl) rfl ht, htf, hreg⟩

/-! ### The statements about streams -/

/-- Frames back to back make their events in order. -/
theorem feed_frames (fs : List Frame) (hf : s.fstate = .clear)
    (hb : ∀ f ∈ fs, isRegistered s.registered f.id = true) :
    ∃ t, feed (fs.flatMap Frame.bytes) s = some (t, fs.map Frame.event) ∧ t.fstate = .clear := by
  induction fs generalizing s with
  | nil => exact ⟨s, feed_nil s, hf⟩
  | cons f fs ih =>
    obtain ⟨hbf, hbfs⟩ := List.forall_mem_cons.mp hb
    obtain ⟨t, ht, htf, hreg⟩ := feed_frame f hf hbf
    obtain ⟨u, hu, huf⟩ := ih htf (hreg ▸ hbfs)
    exact ⟨u, feed_append ht hu, huf⟩

/-- Settles O51: frame after frame without the idle records, which do not matter. -/
theorem framesInPhaseStayInPhase : Obligations.FramesInPhaseStayInPhase := by
  intro fs rs s hf hb hrs
  obtain ⟨t, os, ht, -⟩ := drive_total rs s
  obtain ⟨u, qs, hu, he, hq⟩ := drive_filter_idle rs rfl ht
  rw [hrs] at hu
  obtain ⟨v, hv, hvf⟩ := feed_frames fs hf hb
  have hfeed := feed_eq_some.mpr ⟨qs, hu, rfl⟩
  rw [hv] at hfeed
  obtain ⟨rfl, hes⟩ := Prod.mk.inj (Option.some.inj hfeed)
  exact ⟨t, os, ht, by rw [← he, hes], (State.fstate_of_quiet hq).symm.trans hvf⟩

/-- A frame with the checksum of its bytes is good. -/
theorem Frame.event_ok {f : Frame} (h : f.checksum = checksumOf Config.header f.id f.payload) : f.event.ok = true :=
  decide_eq_true h.symm

/-- Settles O52: noise, the frame, noise. -/
theorem resynchronisesAfterGarbage : Obligations.ResynchronisesAfterGarbage := by
  intro g h f s hf hb hcs hg hh
  obtain ⟨t, ht, htq⟩ := feed_noise g hf hg
  have htf : t.fstate = .clear := (State.fstate_of_quiet htq).trans hf
  have htreg : t.registered = s.registered := State.registered_of_quiet htq
  obtain ⟨u, hu, huf, -⟩ := feed_frame f htf (htreg ▸ hb)
  obtain ⟨v, hv, hvq⟩ := feed_noise h huf hh
  exact ⟨v, feed_append (feed_append ht hu) hv, Frame.event_ok hcs, (State.fstate_of_quiet hvq).trans huf⟩

/-- While FILLING with fill `n`, fewer than `9 − n` bytes keep the framer there without an event. -/
theorem feed_beforeReturn {bs : List Byte} {k : Nat} {S : Slot} (hf : s.fstate = .filling)
    (hS : s.activeSlot? = some (k, S)) (h : bs.length < 9 - S.fill.val) :
    ∃ t, feed bs s = some (t, []) ∧ t.fstate = .filling := by
  obtain ⟨t, ht, htf, -⟩ := feed_payload bs hf hS (by omega)
  exact ⟨t, ht, htf⟩

/-- While FILLING with fill `n`, `9 − n` bytes lead to CLEAR with one event. -/
theorem feed_return {bs : List Byte} {k : Nat} {S : Slot} (hf : s.fstate = .filling)
    (hS : s.activeSlot? = some (k, S)) (h : bs.length = 9 - S.fill.val) :
    ∃ t e, feed bs s = some (t, [e]) ∧ t.fstate = .clear := by
  have hfill := S.fill.isLt
  obtain rfl | ⟨init, b, rfl⟩ := List.eq_nil_or_concat bs
  · rw [List.length_nil] at h
    omega
  · rw [List.concat_eq_append, List.length_append, List.length_singleton] at h
    obtain ⟨t, ht, htf, -⟩ := feed_frameRest init b hf hS (by omega)
    exact ⟨t, _, by rw [List.concat_eq_append, ht], htf⟩

/-- Settles O49: payload bytes up to fill 8 and one checksum byte; after SEEKID the same from fill 0. -/
theorem framerReturnsToClear : Obligations.FramerReturnsToClear := by
  refine ⟨fun s k S bs hf hS => ⟨feed_beforeReturn hf hS, feed_return hf hS⟩, fun s b bs hf => ⟨fun hb => ?reject,
    fun hb hlen => ?before, fun hb hlen => ?after⟩⟩
  case reject => exact ⟨_, feed_singleton (stepOn_reject rfl rfl hf hb), rfl⟩
  case before =>
    obtain ⟨t, k, S, hstep, ho, htf, -, hS, -, -, h0⟩ := stepOn_opens hf hb
    obtain ⟨u, hu, huf⟩ := feed_beforeReturn (bs := bs) htf hS (by rw [h0]; exact hlen)
    exact ⟨u, feed_cons_quiet hstep ho hu, huf⟩
  case after =>
    obtain ⟨t, k, S, hstep, ho, htf, -, hS, -, -, h0⟩ := stepOn_opens hf hb
    obtain ⟨u, e, hu, huf⟩ := feed_return (bs := bs) htf hS (by rw [h0]; exact hlen)
    exact ⟨u, e, feed_cons_quiet hstep ho hu, huf⟩

/-- Settles O53: a registered 0x55 opens its own slot; an unregistered one leads back to CLEAR, where an id is noise. -/
theorem doubleHeaderLosesTheFrame : Obligations.DoubleHeaderLosesTheFrame := by
  intro s p c id hf
  refine ⟨fun hb => ?registered, fun hb hid => ?unregistered⟩
  case registered =>
    obtain ⟨t, ht, htf, -⟩ := feed_frame { id := 0x55, payload := p, checksum := c } hf hb
    exact ⟨t, ht, htf⟩
  case unregistered =>
    exact ⟨_, feed_cons_quiet (stepOn_header rfl rfl hf rfl) rfl
      (feed_cons_quiet (stepOn_reject rfl rfl rfl hb) rfl (feed_singleton (stepOn_noise rfl rfl rfl hid))), rfl⟩

end Sys2Proof.Machine
end

section
/-! PROOFS. What the spec leaves unspecified cannot be seen at the ports (10_state.md R26, R27, R32): agreement of two
states is kept by every step, and agreeing states give the same outputs. -/

namespace Sys2Proof.Machine

variable {s t : State} {S T : Slot}

/-! ### Slots that agree -/

theorem Slot.agree_fill (h : S.agree T) : S.fill = T.fill := by
  obtain ⟨-, -, hfill, -⟩ := h
  exact hfill

/-- One more byte is one more place on which two slots agree. -/
theorem Slot.agree_push {b : Byte} (h : S.agree T) (hS : S.fill.val < 8) (hT : T.fill.val < 8) :
    (S.push b hS).agree (T.push b hT) := by
  obtain ⟨hheader, hid, hfill, hpay⟩ := h
  refine ⟨hheader, hid, Fin.ext (by rw [Slot.push_fill, Slot.push_fill, hfill]), fun i hi hlt => ?_⟩
  rw [Slot.push_fill] at hlt
  rw [Slot.push_payload, Slot.push_payload, ← hfill]
  by_cases hb : i = S.fill.val
  · rw [if_pos hb, if_pos hb]
  · rw [if_neg hb, if_neg hb]
    exact hpay i hi (by omega)

/-- Slots that agree on a whole payload are the same. -/
theorem Slot.eq_of_agree (h : S.agree T) (h8 : S.fill = 8) : S = T := by
  obtain ⟨hheader, hid, hfill, hpay⟩ := h
  have hpayload : S.payload = T.payload := by
    ext i hi
    rw [hpay i hi (by rw [h8]; exact hi)]
  cases S
  cases T
  simp_all

/-- Two slots just opened by the same id byte agree, whatever payload bytes they held. -/
theorem Slot.agree_opened (b : Byte) (p q : Payload) :
    Slot.agree { header := Config.header, id := b, payload := p, fill := 0 }
      { header := Config.header, id := b, payload := q, fill := 0 } :=
  ⟨rfl, rfl, rfl, fun _ _ h => absurd h (Nat.not_lt_zero _)⟩

/-! ### States that agree -/

/-- Agreeing states that are FILLING have agreeing active slots at one index. -/
theorem State.agree_activeSlot? (h : s.agree t) (hf : s.fstate = .filling) {k : Nat} (hS : s.activeSlot? = some (k, S)) :
    ∃ T, t.activeSlot? = some (k, T) ∧ S.agree T := by
  obtain ⟨-, -, -, -, hfill⟩ := h
  obtain ⟨-, k', S', T, hS', hT, hagree⟩ := hfill hf
  rw [hS] at hS'
  cases hS'
  exact ⟨T, hT, hagree⟩

/-- Agreeing states that both leave a frame, or have not begun one, agree. -/
theorem State.agree_setFState (h : s.agree t) {f : FState} (hf : f ≠ .filling) :
    (s.setFState f).agree (t.setFState f) := by
  obtain ⟨-, hval, hreg, hin, -⟩ := h
  exact ⟨rfl, hval, hreg, hin, fun h => absurd h hf⟩

theorem State.agree_setValidate (h : s.agree t) (v : Bool) : (s.setValidate v).agree (t.setValidate v) := by
  obtain ⟨hf, -, hreg, hin, hfill⟩ := h
  exact ⟨hf, rfl, hreg, hin, hfill⟩

theorem State.agree_setOut (h : s.agree t) (o : Outputs) : (s.setOut o).agree (t.setOut o) := h

theorem State.agree_cfgWritten (h : s.agree t) (r : InputRecord) : (s.cfgWritten r).agree (t.cfgWritten r) := by
  obtain ⟨-, hval, -⟩ := id h
  rw [State.cfgWritten, State.cfgWritten, hval]
  exact State.agree_setValidate h _

/-- Opening the slot of one id in both states makes them agree on an empty frame. -/
theorem State.agree_opened (h : s.agree t) {b : Byte} {k : Nat} {old old' : Slot} (hk : slotIndex b = some k)
    (ho : s.slot? k = some old) (ho' : t.slot? k = some old') (p q : Payload) :
    (((s.setSlot k { header := Config.header, id := b, payload := p, fill := 0 }).setActiveId b).setFState
      .filling).agree
    (((t.setSlot k { header := Config.header, id := b, payload := q, fill := 0 }).setActiveId b).setFState
      .filling) := by
  obtain ⟨-, hval, hreg, hin, -⟩ := h
  exact ⟨rfl, by simpa using hval, by simpa using hreg, by simpa using hin, fun _ => ⟨rfl, k, _, _,
    State.activeSlot?_of_id hk ho _, State.activeSlot?_of_id hk ho' _, Slot.agree_opened b p q⟩⟩

/-- Writing agreeing contents to the active slots keeps the states in agreement. -/
theorem State.agree_setSlot (h : s.agree t) {k : Nat} {S' T' : Slot} (hS : s.activeSlot? = some (k, S))
    (hT : t.activeSlot? = some (k, T)) (hagree : S'.agree T') : (s.setSlot k S').agree (t.setSlot k T') := by
  obtain ⟨hf, hval, hreg, hin, hfill⟩ := h
  refine ⟨by simpa using hf, by simpa using hval, by simpa using hreg, by simpa using hin, fun hfs => ?_⟩
  obtain ⟨hid, -⟩ := hfill (by simpa using hfs)
  exact ⟨by simpa using hid, k, S', T', State.setSlot_activeSlot? hS S', State.setSlot_activeSlot? hT T', hagree⟩

/-- Agreeing states give the same outputs in a step and agree after it. -/
theorem stepOn_agree {r : InputRecord} {u v : State} (h : s.agree t) (hu : stepOn r s = .next u)
    (hv : stepOn r t = .next v) : u.out = v.out ∧ u.agree v := by
  obtain ⟨hf, hval, hreg, -, hfill⟩ := id h
  have hq : s.quiet.agree t.quiet := State.agree_setOut h _
  cases stepOn_kind hu with
  | reset hr =>
    rw [stepOn_reset hr] at hv
    cases hv
    exact ⟨rfl, State.agree_setValidate (State.agree_setFState hq (by decide)) false⟩
  | idle hr hi =>
    rw [stepOn_idle hr hi] at hv
    cases hv
    exact ⟨rfl, State.agree_cfgWritten hq r⟩
  | header hr hi hc hb =>
    rw [stepOn_header hr hi (hf ▸ hc) hb] at hv
    cases hv
    exact ⟨rfl, State.agree_cfgWritten (State.agree_setFState hq (by decide)) r⟩
  | noise hr hi hc hb =>
    rw [stepOn_noise hr hi (hf ▸ hc) hb] at hv
    cases hv
    exact ⟨rfl, State.agree_cfgWritten hq r⟩
  | id hr hi hc hb hk hlt ho =>
    have ho' := State.slot?_of_lt t hlt
    rw [stepOn_id hr hi (hf ▸ hc) (hreg ▸ hb) hk ho'] at hv
    cases hv
    exact ⟨by simp, State.agree_cfgWritten (State.agree_opened hq hk ho ho' _ _) r⟩
  | reject hr hi hc hb =>
    rw [stepOn_reject hr hi (hf ▸ hc) (hreg ▸ hb)] at hv
    cases hv
    exact ⟨rfl, State.agree_cfgWritten (State.agree_setFState hq (by decide)) r⟩
  | payload hr hi hc hS hn =>
    obtain ⟨T, hT, hagree⟩ := State.agree_activeSlot? h hc hS
    have hn' : T.fill.val < 8 := Slot.agree_fill hagree ▸ hn
    rw [stepOn_payload hr hi (hf ▸ hc) hT hn'] at hv
    cases hv
    exact ⟨by simp, State.agree_cfgWritten (State.agree_setSlot hq hS hT (Slot.agree_push hagree hn hn')) r⟩
  | checksum hr hi hc hS h8 =>
    obtain ⟨T, hT, hagree⟩ := State.agree_activeSlot? h hc hS
    obtain rfl := Slot.eq_of_agree hagree h8
    rw [stepOn_checksum hr hi (hf ▸ hc) hT h8] at hv
    cases hv
    exact ⟨by simp [hval], State.agree_cfgWritten (hval ▸ State.agree_setOut (State.agree_setFState h (by decide)) _) r⟩
  | absentPayload hr hi hc hS | absentChecksum hr hi hc hS =>
    obtain ⟨-, k, S, T, hS', -⟩ := hfill hc
    simp [hS] at hS'

/-- Settles O54: agreement is kept by every step, and a step of agreeing states drives the same outputs. -/
theorem unspecifiedStateIsInvisible : Obligations.UnspecifiedStateIsInvisible := by
  intro rs
  induction rs with
  | nil => exact fun s t h => ⟨s, t, [], rfl, rfl, h⟩
  | cons r rs ih =>
    intro s t h
    have hs := stepOn_eq_refStep r s
    have ht := stepOn_eq_refStep r t
    obtain ⟨hout, hagree⟩ := stepOn_agree h hs ht
    obtain ⟨u, v, os, hu, hv, huv⟩ := ih _ _ hagree
    refine ⟨u, v, (refStep s r).out :: os, ?_, ?_, huv⟩
    · rw [drive_cons_next hs, hu]; rfl
    · rw [drive_cons_next ht, hv, hout]; rfl

end Sys2Proof.Machine
end
